-- ==== Sys2Proof/Word.lean ====
section
/-!
DEFINITION. The words of the Tarjep TQ-4: byte, time, identity, sets, counts and the small index types, and the
four-place record that holds one thing for each channel, term or digital input.
-/

namespace Sys2Proof

/-- A byte of a frame or of the configuration image (R178, R184). -/
abbrev Byte := BitVec 8

/-- A 48-bit tick count: local time, network time, or a difference of the two (R70, R71). -/
abbrev Time := BitVec 48

/-- A station identity as the priority byte carries it: five bits, 1 to 31 valid (R135). -/
abbrev Ident := BitVec 5

/-- A set of identities: bit `n` of the word is set when identity `n` is in the set (R179). -/
abbrev IdSet := BitVec 32

/-- A set of groups: bit `n` is set when group `n` is in the set (R179). -/
abbrev GroupSet := BitVec 8

/-- A set of channels: bit `n` is set when channel `n` is in the set (R57, R180, R184). -/
abbrev ChanSet := BitVec 4

/-- A 32-bit signed count, preset value or threshold (R95, R179). -/
abbrev Count := BitVec 32

/-- A group number, 0 to 7. -/
abbrev Group := Fin 8

/-- A channel number, 0 to 3. -/
abbrev Chan := Fin 4

/-- A trigger term number, 0 to 3. -/
abbrev TermNo := Fin 4

/-- A digital input number, 0 to 3. -/
abbrev InputNo := Fin 4

/-- A strobe number, 0 or 1. -/
abbrev StrobeNo := Fin 2

/-- One thing for each of four numbered places (channels, terms, digital inputs). -/
structure Four (α : Type) where
  x0 : α
  x1 : α
  x2 : α
  x3 : α
  deriving DecidableEq, Repr

/-- The thing in place `i`. -/
def Four.get {α : Type} (v : Four α) (i : Fin 4) : α :=
  match i.val with
  | 0 => v.x0
  | 1 => v.x1
  | 2 => v.x2
  | _ => v.x3

/-- `v` with `x` in place `i`. -/
def Four.set {α : Type} (v : Four α) (i : Fin 4) (x : α) : Four α :=
  match i.val with
  | 0 => { v with x0 := x }
  | 1 => { v with x1 := x }
  | 2 => { v with x2 := x }
  | _ => { v with x3 := x }

/-- The four places filled by a function of the place number. -/
def Four.build {α : Type} (f : Fin 4 → α) : Four α := ⟨f 0, f 1, f 2, f 3⟩

/-- The same thing in all four places. -/
def Four.all {α : Type} (x : α) : Four α := ⟨x, x, x, x⟩

/-- The four place numbers, ascending. -/
def four : List (Fin 4) := [0, 1, 2, 3]

/-- The eight group numbers, ascending. -/
def eight : List (Fin 8) := [0, 1, 2, 3, 4, 5, 6, 7]

end Sys2Proof
end

