-- ==== Sys2Proof/Syntax.lean ====
section
/-!
DEFINITION. The commands of the TQ-4: one constructor for each row of spec/opcode_table.json.

Every command's first operand `dt` says what passes before the command is taken: the ticks of local time (R70;
assumption 2) and the bit times of them in which others drive the bus dominant (R133, R139; assumption 13). A frame arrival carries
the frame's bytes as they stood on the wire, so that the checks of R140 are part of the command.
-/

namespace Sys2Proof

/-- The three lines of an encoder channel. -/
inductive Line where
  | a | b | r
  deriving DecidableEq, Repr

/-- A further reset condition during a reset hold (R163). -/
inductive ResetCondition where
  /-- The supply falls below 2.70 V, not below 1.50 V. -/
  | below270
  /-- The supply falls below 1.50 V. -/
  | below150
  /-- NRST is driven low. -/
  | nrstLow
  deriving DecidableEq, Repr

/-- How a receiver loses a frame (R139, R140). -/
inductive FramingKind where
  /-- A stop bit reads dominant. -/
  | dominantStop
  /-- A recessive bit where the start bit of a further byte is due. -/
  | missingStart
  /-- A payload length over 64 at byte 2. -/
  | overlong
  deriving DecidableEq, Repr

/-- The name of a capture (R1). -/
inductive Tag where
  | station (origin : Ident) (seq : BitVec 16)
  | cadence (group : Group) (index : BitVec 16)
  deriving DecidableEq, Repr

/-- What passes before a command is taken (assumptions 2 and 13). -/
structure Lapse where
  /-- R70: the ticks of local time. -/
  ticks : Nat
  /-- R133: the bit times of them, from 0 on, one to the tick, in which others than this station drive the bus
  dominant. -/
  dominant : List Nat
  deriving DecidableEq, Repr

/-- `n` ticks in which nobody else drives the bus. -/
def after (n : Nat) : Lapse := ⟨n, []⟩

/-- The commands, in the order of the table. -/
inductive Instr where
  /-- R163: the supply comes up from below 1.50 V. -/
  | powerOnReset (dt : Lapse)
  /-- R163: the supply falls below 2.70 V. -/
  | supplyLowReset (dt : Lapse)
  /-- R163: NRST is driven low. -/
  | pinReset (dt : Lapse)
  /-- R164, R165: the last reset condition ends, the straps read `straps`, and the supply is at or above 3.10 V
  exactly when `supplyNormal`. -/
  | resetRelease (dt : Lapse) (straps : Ident) (supplyNormal : Bool)
  /-- R166: a read attempt ends, with the bytes it gave, or `none` where it failed. -/
  | configReadAttempt (dt : Lapse) (image : Option (List Byte))
  /-- R171. -/
  | listenTimerExpiry (dt : Lapse)
  /-- R172, R173: the supply falls below 3.00 V. -/
  | supplyWarning (dt : Lapse)
  /-- R172, R173: the supply rises to 3.10 V or above. -/
  | supplyClear (dt : Lapse)
  /-- R78, R81: a frame of kind BEACON ends; `edge` is the arrival stamp handed on with it, the start edge of the frame. -/
  | beaconArrival (dt : Lapse) (frame : List Byte) (edge : Time)
  /-- R84. -/
  | leaveArrival (dt : Lapse) (frame : List Byte)
  /-- R7. -/
  | callArrival (dt : Lapse) (frame : List Byte)
  /-- R40. -/
  | reportArrival (dt : Lapse) (frame : List Byte)
  /-- R22. -/
  | closeArrival (dt : Lapse) (frame : List Byte)
  /-- R58. -/
  | presetArrival (dt : Lapse) (frame : List Byte)
  /-- R154: a REQUEST of kind STATUS. -/
  | statusRequest (dt : Lapse) (frame : List Byte)
  /-- R128: a REQUEST of kind TERM-CONTROL with action ARM. -/
  | termControlArm (dt : Lapse) (frame : List Byte)
  /-- R128: a REQUEST of kind TERM-CONTROL with action DISARM. -/
  | termControlDisarm (dt : Lapse) (frame : List Byte)
  /-- R109: a REQUEST of kind FAULT-ACK. -/
  | faultAck (dt : Lapse) (frame : List Byte)
  /-- R153: a REQUEST whose kind or argument is unknown. -/
  | unknownRequest (dt : Lapse) (frame : List Byte)
  /-- R141. -/
  | replyArrival (dt : Lapse) (frame : List Byte)
  /-- R134: the first start bit of an own frame. -/
  | frameStart (dt : Lapse)
  /-- R136. -/
  | lostArbitration (dt : Lapse)
  /-- R137. -/
  | bitError (dt : Lapse)
  /-- R138: the last stop bit of an own frame, with no bit error. -/
  | frameSent (dt : Lapse)
  /-- R147. -/
  | quietEnd (dt : Lapse)
  /-- R76. -/
  | beaconSlot (dt : Lapse)
  /-- R54. -/
  | sampleInstant (dt : Lapse)
  /-- R35. -/
  | cadenceMoment (dt : Lapse) (group : Group)
  /-- R23: for the entry of that tag. -/
  | retentionEnd (dt : Lapse) (tag : Tag)
  /-- R43: for the entry of that tag. -/
  | collectionDeadline (dt : Lapse) (tag : Tag)
  /-- R24: for the entry of that tag. -/
  | strobeInstant (dt : Lapse) (tag : Tag)
  /-- R130. -/
  | strobePulseEnd (dt : Lapse) (strobe : StrobeNo)
  /-- R64. -/
  | presetDue (dt : Lapse)
  /-- R97: the lines of a channel take the levels `a`, `b`, `r`. Where several terms fire at this step, their fire
  requests reach the capture unit in the order of `first` (R125). -/
  | encoderStep (dt : Lapse) (chan : Chan) (a b r : Bool) (first : List TermNo)
  /-- R103. -/
  | lineCauseAppears (dt : Lapse) (chan : Chan) (line : Line)
  /-- R103, R105. -/
  | lineCauseDisappears (dt : Lapse) (chan : Chan) (line : Line)
  /-- R108. -/
  | autoAckTimerExpiry (dt : Lapse) (chan : Chan)
  /-- R117: the raw level of a digital input becomes `level`. -/
  | digitalInputRawChange (dt : Lapse) (input : InputNo) (level : Bool)
  /-- R117: a filter run ends; `first` as for `encoderStep`. -/
  | filteredInputChange (dt : Lapse) (input : InputNo) (first : List TermNo)
  /-- R126. -/
  | holdoffExpiry (dt : Lapse) (term : TermNo)
  /-- R163: a reset condition while a reset hold stands. -/
  | furtherResetCondition (dt : Lapse) (condition : ResetCondition)
  /-- R139, R140. -/
  | framingError (dt : Lapse) (kind : FramingKind)
  /-- R133: the idle count reaches 12. -/
  | busIdle (dt : Lapse)
  deriving DecidableEq, Repr

/-- What passes before the command is taken. -/
def Instr.elapsed : Instr → Lapse
  | .powerOnReset dt | .supplyLowReset dt | .pinReset dt | .resetRelease dt _ _ | .configReadAttempt dt _
  | .listenTimerExpiry dt | .supplyWarning dt | .supplyClear dt | .beaconArrival dt _ _ | .leaveArrival dt _
  | .callArrival dt _ | .reportArrival dt _ | .closeArrival dt _ | .presetArrival dt _ | .statusRequest dt _
  | .termControlArm dt _ | .termControlDisarm dt _ | .faultAck dt _ | .unknownRequest dt _ | .replyArrival dt _
  | .frameStart dt | .lostArbitration dt | .bitError dt | .frameSent dt | .quietEnd dt | .beaconSlot dt
  | .sampleInstant dt | .cadenceMoment dt _ | .retentionEnd dt _ | .collectionDeadline dt _ | .strobeInstant dt _
  | .strobePulseEnd dt _ | .presetDue dt | .encoderStep dt _ _ _ _ _ | .lineCauseAppears dt _ _
  | .lineCauseDisappears dt _ _ | .autoAckTimerExpiry dt _ | .digitalInputRawChange dt _ _
  | .filteredInputChange dt _ _ | .holdoffExpiry dt _ | .furtherResetCondition dt _ | .framingError dt _
  | .busIdle dt => dt

/-- The frame bytes an arrival carries. -/
def Instr.frame? : Instr → Option (List Byte)
  | .beaconArrival _ f _ | .leaveArrival _ f | .callArrival _ f | .reportArrival _ f | .closeArrival _ f
  | .presetArrival _ f | .statusRequest _ f | .termControlArm _ f | .termControlDisarm _ f | .faultAck _ f
  | .unknownRequest _ f | .replyArrival _ f => some f
  | .powerOnReset _ | .supplyLowReset _ | .pinReset _ | .resetRelease _ _ _ | .configReadAttempt _ _
  | .listenTimerExpiry _ | .supplyWarning _ | .supplyClear _ | .frameStart _ | .lostArbitration _ | .bitError _
  | .frameSent _ | .quietEnd _ | .beaconSlot _ | .sampleInstant _ | .cadenceMoment _ _ | .retentionEnd _ _
  | .collectionDeadline _ _ | .strobeInstant _ _ | .strobePulseEnd _ _ | .presetDue _ | .encoderStep _ _ _ _ _ _
  | .lineCauseAppears _ _ _ | .lineCauseDisappears _ _ _ | .autoAckTimerExpiry _ _ | .digitalInputRawChange _ _ _
  | .filteredInputChange _ _ _ | .holdoffExpiry _ _ | .furtherResetCondition _ _ | .framingError _ _
  | .busIdle _ => none

/-- R78: the arrival stamp a command carries: that of a BEACON. -/
def Instr.stamp? : Instr → Option Time
  | .beaconArrival _ _ edge => some edge
  | .leaveArrival _ _ | .callArrival _ _ | .reportArrival _ _ | .closeArrival _ _ | .presetArrival _ _
  | .statusRequest _ _ | .termControlArm _ _ | .termControlDisarm _ _ | .faultAck _ _ | .unknownRequest _ _
  | .replyArrival _ _ | .powerOnReset _ | .supplyLowReset _ | .pinReset _ | .resetRelease _ _ _
  | .configReadAttempt _ _ | .listenTimerExpiry _ | .supplyWarning _ | .supplyClear _ | .frameStart _
  | .lostArbitration _ | .bitError _ | .frameSent _ | .quietEnd _ | .beaconSlot _ | .sampleInstant _
  | .cadenceMoment _ _ | .retentionEnd _ _ | .collectionDeadline _ _ | .strobeInstant _ _ | .strobePulseEnd _ _
  | .presetDue _ | .encoderStep _ _ _ _ _ _ | .lineCauseAppears _ _ _ | .lineCauseDisappears _ _ _
  | .autoAckTimerExpiry _ _ | .digitalInputRawChange _ _ _ | .filteredInputChange _ _ _ | .holdoffExpiry _ _
  | .furtherResetCondition _ _ | .framingError _ _ | .busIdle _ => none

end Sys2Proof
end

