-- ==== Sys2Proof/Decode.lean ====
section
/-!
DEFINITION. The command a table word spells. No row of spec/opcode_table.json gives a command any bits (every row's
"fields" is empty and none has "fixed"), so no word spells a command. The wire formats of the frames that commands
carry are decoded and encoded in Machine/Operands.lean.
-/

namespace Sys2Proof

/-- No row of the table gives bits: every word spells no command. -/
def decodeTableWord (_nbits _w : Nat) : Option Instr := none

end Sys2Proof
end

