-- ==== Sys2Proof/Config.lean ====
section
/-!
DEFINITION. The constants fixed in the TQ-4 (the scope file's table "The part's constants"), by name and value, in
ticks of 100 ns where they are times. The spec leaves no value of an instruction open, so there is no free value here.
-/

namespace Sys2Proof.Config

/-- 1 ms in ticks. -/
def ticksPerMs : Nat := 10000
/-- 1 µs in ticks. -/
def ticksPerUs : Nat := 10
/-- R75: the beacon interval, 10 ms of network time. -/
def beaconInterval : Nat := 100000
/-- R75: the spacing of beacon slots, 250 µs. -/
def slotSpacing : Nat := 2500
/-- R83: a peer older than this becomes SILENT (30 ms). -/
def silentAge : Nat := 300000
/-- R83: a peer older than this is removed (80 ms). -/
def removeAge : Nat := 800000
/-- R81: consecutive accepted BEACONs that admit a peer. -/
def admission : Nat := 3
/-- R90: consecutive rounds within the limit that readmit a SUSPECT peer. -/
def recovery : Nat := 3
/-- R88: the lock window. -/
def lockWindow : Nat := 10
/-- R87: the step limit of a round. -/
def stepLimit : Nat := 50
/-- R87: the jump threshold. -/
def jumpThreshold : Nat := 2000
/-- R81, R89: the reject limit. -/
def rejectLimit : Nat := 200
/-- R170: the listen period, 150 ms. -/
def listenPeriod : Nat := 1500000
/-- R4: entries of the capture table. -/
def tableSize : Nat := 16
/-- R4: entries with an origin part. -/
def originPlaces : Nat := 4
/-- R2: member retention, 100 ms. -/
def retention : Nat := 1000000
/-- R11, R60: the horizon of calls and presets, 100 ms. -/
def horizon : Nat := 1000000
/-- R142: frames of the transmit queue, the one in flight included. -/
def queueSize : Nat := 12
/-- R138: the failed attempt that discards a frame. -/
def attemptLimit : Nat := 4
/-- R147: consecutive discards that make the link QUIET. -/
def discardLimit : Nat := 3
/-- R147: the length of QUIET, 100 ms. -/
def quietPeriod : Nat := 1000000
/-- R52: samples of a ring. -/
def ringSize : Nat := 512
/-- R63: pending presets. -/
def presetSize : Nat := 4
/-- R166: read attempts of the configuration image. -/
def readAttempts : Nat := 3
/-- R133: recessive bit times that make the bus idle. -/
def idleBits : Nat := 12
/-- R137: the dominant bits of an error mark. -/
def markBits : Nat := 12
/-- R133: the bits of a byte on the wire, of one tick each. -/
def byteBits : Nat := 10
/-- R50: a multiple of the four sample periods. -/
def phaseTicks : Nat := 1000
/-- R178: the longest payload. -/
def maxPayload : Nat := 64
/-- R184: the bytes of the configuration image. -/
def imageSize : Nat := 103

end Sys2Proof.Config
end

