-- ==== Sys2Proof/Machine/Types.lean ====
section
/-!
DEFINITION. The values the TQ-4's blocks keep and the frames they exchange, under the names the spec gives them.
-/

namespace Sys2Proof.Machine

/-! ### Coded values -/

/-- R163 to R177: the lifecycle state. -/
inductive Lifecycle where
  | loading | halted | listening | joined | leaving | withdrawn | muted
  deriving DecidableEq, Repr

/-- R73. -/
inductive TimeState where
  | free | locking | locked
  deriving DecidableEq, Repr

/-- R163. -/
inductive ResetCause where
  | power | pin | supply
  deriving DecidableEq, Repr

/-- R165 to R169. -/
inductive HaltReason where
  | idZero | noMemory | check | range
  deriving DecidableEq, Repr

/-- R172: the supply monitor state. -/
inductive Monitor where
  | normal | warning
  deriving DecidableEq, Repr

/-- R163: what a reset hold began as. -/
inductive ResetKind where
  | powerOn | supplyLow | pin
  deriving DecidableEq, Repr

/-- R95: the quality of a channel. -/
inductive Quality where
  | good | unconfirmed | fault
  deriving DecidableEq, Repr

/-- R62: the reason of the last preset refusal. -/
inductive RefusalReason where
  | none | late | far | full | crowded
  deriving DecidableEq, Repr

/-- R2: the kind of a capture. -/
inductive CallKind where
  | triggered | cadence | scheduled
  deriving DecidableEq, Repr

/-- R13, R19: the declined reason of a REPORT. -/
inductive DeclineReason where
  | none | far | tableFull
  deriving DecidableEq, Repr

/-- R153 to R156: the result of a REPLY. -/
inductive ReplyResult where
  | done | noTerm | stillPresent | unknown
  deriving DecidableEq, Repr

/-- R119: the state of a term as a snapshot shows it. -/
inductive TermPhase where
  | disarmed | armed | holdoff
  deriving DecidableEq, Repr

/-- R81 to R90. -/
inductive PeerState where
  | heard | admitted | suspect | silent
  deriving DecidableEq, Repr

/-- R2: the member state of an entry. -/
inductive MemberState where
  | waiting | resolved | reported | abandoned
  deriving DecidableEq, Repr

/-- R2: the strobe flag of an entry. -/
inductive StrobeFlag where
  | pending | done | missed
  deriving DecidableEq, Repr

/-- R28: the origin state. -/
inductive OriginState where
  | calling | collecting | closing
  deriving DecidableEq, Repr

/-- R139: what the receiver does with a dominant bit. -/
inductive Receiver where
  /-- It waits for the bus to be idle. -/
  | waiting
  /-- The bus is idle, and a dominant bit is the start bit of a frame. -/
  | ready
  /-- A frame, another station's or an own one, is on the wire since its start edge. -/
  | taking (edge : Time)
  deriving DecidableEq, Repr

/-- One Bool for each of a channel's lines A, B and R. -/
structure Lines where
  a : Bool
  b : Bool
  r : Bool
  deriving DecidableEq, Repr

/-- All three the same. -/
def Lines.all (x : Bool) : Lines := ⟨x, x, x⟩

/-- The Bool of one line. -/
def Lines.get (l : Lines) : Line → Bool
  | .a => l.a
  | .b => l.b
  | .r => l.r

/-- One line's Bool set to `x`. -/
def Lines.set (l : Lines) (n : Line) (x : Bool) : Lines :=
  match n with
  | .a => { l with a := x }
  | .b => { l with b := x }
  | .r => { l with r := x }

/-! ### The configuration image (R168, R184) -/

/-- R96. -/
inductive ChannelMode where
  | off | quad4 | pulseDir
  deriving DecidableEq, Repr

/-- R122. -/
inductive Direction where
  | up | down | either
  deriving DecidableEq, Repr

/-- R125: whether a term stays armed after a fire. -/
inductive TermMode where
  | single | continuous
  deriving DecidableEq, Repr

/-- The kind of a term with the fields of that kind (section 6.2). -/
inductive Condition where
  | none
  /-- The signal set and the required levels, in the bit order of R184. -/
  | pattern (signals levels : BitVec 16)
  | cross (chan : Chan) (direction : Direction) (threshold : Count)
  deriving DecidableEq, Repr

/-- A term record (section 6.2, R184). -/
structure TermConfig where
  condition : Condition
  group : Group
  mode : TermMode
  armedAtJoin : Bool
  /-- in µs -/
  holdoff : Nat
  deriving DecidableEq, Repr

/-- A strobe's group and width (section 6.9, R184). -/
structure StrobeConfig where
  group : Option Group
  /-- in µs -/
  width : Nat
  deriving DecidableEq, Repr

/-- A group's channel map and cadence period in ms (R57, R32). -/
structure GroupConfig where
  map : ChanSet
  period : Nat
  deriving DecidableEq, Repr

/-- The accepted configuration image, field by field. -/
structure Image where
  /-- R50: the sample period in ticks. -/
  samplePeriod : Nat
  modes : Four ChannelMode
  /-- R102: the monitor enables. -/
  monitors : Four Lines
  /-- R107: the auto-acknowledge quiet time in ms. -/
  quietTime : Nat
  /-- R117: the filter time of each digital input in ticks. -/
  filters : Four Nat
  /-- The group declaration. -/
  declared : GroupSet
  groups : Vector GroupConfig 8
  /-- R32: the cadence lead in ms. -/
  cadenceLead : Nat
  /-- R37: the collect window in ms. -/
  collectWindow : Nat
  /-- R79: the bus delay compensation in ticks. -/
  busDelay : Nat
  terms : Four TermConfig
  strobe0 : StrobeConfig
  strobe1 : StrobeConfig
  deriving DecidableEq, Repr

/-! ### Frames (chapter 10) -/

/-- The before-sample fields of a channel entry (R16). -/
structure BeforeSample where
  count : Count
  offset : BitVec 16
  epoch : Byte
  deriving DecidableEq, Repr

/-- The after-sample fields of a channel entry (R16). -/
structure AfterSample where
  count : Count
  offset : BitVec 16
  deriving DecidableEq, Repr

/-- What a REPORT says of one channel (R16). -/
inductive Reading where
  | stale
  | sampled (quality : Quality) (before : BeforeSample) (after : Option AfterSample)
  deriving DecidableEq, Repr

/-- A channel entry of a REPORT (R16). -/
structure ChannelEntry where
  chan : Chan
  reading : Reading
  deriving DecidableEq, Repr

/-- R181. -/
structure CallFrame where
  tag : Tag
  group : Group
  time : Time
  kind : CallKind
  fireLost : Bool
  deriving DecidableEq, Repr

/-- R182. -/
structure ReportFrame where
  tag : Tag
  timeState : TimeState
  reason : DeclineReason
  entries : List ChannelEntry
  deriving DecidableEq, Repr

/-- R181; `complete` is the outcome COMPLETE. -/
structure CloseFrame where
  tag : Tag
  complete : Bool
  responders : IdSet
  decliners : IdSet
  missing : IdSet
  deriving DecidableEq, Repr

/-- R77, R180. -/
structure BeaconFrame where
  stamp : Time
  groups : GroupSet
  lifecycle : Lifecycle
  timeState : TimeState
  cause : ResetCause
  deriving DecidableEq, Repr

/-- R180. -/
structure PresetFrame where
  group : Group
  time : Time
  value : Count
  deriving DecidableEq, Repr

/-- R180. -/
structure RequestFrame where
  target : Ident
  kind : Byte
  argA : Byte
  argB : Byte
  deriving DecidableEq, Repr

/-- A channel as a snapshot shows it (R160, R183). -/
structure ChannelStatus where
  quality : Quality
  latched : Lines
  causes : Lines
  count : Count
  epoch : Byte
  deriving DecidableEq, Repr

/-- A term as a snapshot shows it (R160, R183). -/
structure TermStatus where
  phase : TermPhase
  blocked : Bool
  fireLost : Bool
  deriving DecidableEq, Repr

/-- R62; sender 0 is none. -/
structure RefusalRecord where
  reason : RefusalReason
  sender : Ident
  group : Group
  deriving DecidableEq, Repr

/-- R160: the status snapshot; `quiet` is the link state QUIET. -/
structure Snapshot where
  lifecycle : Lifecycle
  cause : ResetCause
  timeState : TimeState
  quiet : Bool
  admitted : Nat
  suspect : Nat
  heard : Nat
  chans : Four ChannelStatus
  terms : Four TermStatus
  refusal : RefusalRecord
  tableEntries : Nat
  originEntries : Nat
  queueFrames : Nat
  presets : Nat
  deriving DecidableEq, Repr

/-- R183. -/
structure ReplyFrame where
  requester : Ident
  kind : Byte
  result : ReplyResult
  snapshot : Snapshot
  deriving DecidableEq, Repr

/-- The kind and payload of a frame (R178). -/
inductive Body where
  | beacon (f : BeaconFrame)
  | leave (reason : Byte)
  | call (f : CallFrame)
  | report (f : ReportFrame)
  | close (f : CloseFrame)
  | preset (f : PresetFrame)
  | request (f : RequestFrame)
  | reply (f : ReplyFrame)
  deriving DecidableEq, Repr

/-- A frame: class and sender of its priority byte, and its body (R135). -/
structure Frame where
  cls : BitVec 2
  sender : Ident
  body : Body
  deriving DecidableEq, Repr

/-! ### The station controller -/

/-- R163: a reset hold, and the lowest the supply has been in it. -/
structure Hold where
  begun : ResetKind
  below270 : Bool
  below150 : Bool
  deriving DecidableEq, Repr

/-- R163 to R177: what the station controller keeps and drives. -/
structure Controller where
  hold : Option Hold
  lifecycle : Lifecycle
  resetCause : ResetCause
  haltReason : Option HaltReason
  /-- R166: failed read attempts of the image. -/
  readFailures : Nat
  /-- R170: the expiry of the listen timer, `none` while it is stopped. -/
  listenTimer : Option Time
  monitor : Monitor
  /-- R165: 0 while it has not been read, or where the straps read 0. -/
  identity : Ident
  /-- R92. -/
  syncLine : Bool
  /-- R113. -/
  faultLine : Bool
  deriving DecidableEq, Repr

/-! ### The time unit -/

/-- R80: a peer entry. -/
structure Peer where
  ident : Ident
  state : PeerState
  lastBeacon : Time
  offset : Time
  fresh : Bool
  accepted : Nat
  inLimit : Nat
  groups : GroupSet
  timeState : TimeState
  deriving DecidableEq, Repr

/-- R70 to R76, R80. -/
structure TimeUnit where
  localTime : Time
  /-- R50: the ticks since the release modulo 1,000, a multiple of every sample period: where local time stands in the
  series of sample instants, which a wrap of local time does not start afresh. -/
  phase : Nat
  correction : Time
  state : TimeState
  /-- R80: in ascending identity. -/
  peers : List Peer
  nextSlot : Option Time
  deriving DecidableEq, Repr

/-! ### The channel unit -/

/-- R102: a line record. -/
structure LineRecord where
  cause : Bool
  latched : Bool
  deriving DecidableEq, Repr

/-- R95: what a channel keeps. -/
structure Channel where
  count : Count
  epoch : Byte
  quality : Quality
  recA : LineRecord
  recB : LineRecord
  recR : LineRecord
  /-- R107: the expiry of the auto-acknowledge timer, `none` while it is stopped. -/
  timer : Option Time
  lastA : Bool
  lastB : Bool
  deriving DecidableEq, Repr

/-! ### The history unit -/

/-- R51. -/
structure Sample where
  time : Time
  count : Count
  epoch : Byte
  quality : Quality
  deriving DecidableEq, Repr

/-- R63: a pending preset. -/
structure Preset where
  group : Group
  time : Time
  value : Count
  chans : ChanSet
  deriving DecidableEq, Repr

/-- R50 to R69. -/
structure History where
  /-- R52: oldest first. -/
  rings : Four (List Sample)
  /-- R54: the newest instant, `none` before the first sample. -/
  newest : Option Time
  /-- R50: the next sample instant, `none` while sampling does not run. -/
  nextInstant : Option Time
  /-- R53: the last instant that passed without a sample in LOADING. -/
  passed : Option Time
  presets : List Preset
  /-- R64. -/
  touched : ChanSet
  deriving DecidableEq, Repr

/-! ### The trigger unit -/

/-- R116: a watched signal. -/
structure Signal where
  level : Bool
  stamp : Time
  deriving DecidableEq, Repr

/-- R116: the three signals of a channel. -/
structure ChannelSignals where
  a : Signal
  b : Signal
  r : Signal
  deriving DecidableEq, Repr

/-- R117: a filter run: the raw level taken at `start`, to be the filtered level at `start + F`. -/
structure FilterRun where
  level : Bool
  start : Time
  deriving DecidableEq, Repr

/-- R119: a term's state; a hold-off expiry is present only in HOLDOFF. -/
inductive TermState where
  | disarmed
  | armed
  | holdoff (expiry : Time)
  deriving DecidableEq, Repr

/-- R119. -/
structure Term where
  state : TermState
  blocked : Bool
  ready : Bool
  fireLost : Bool
  deriving DecidableEq, Repr

/-- R116 to R119. -/
structure Trigger where
  chans : Four ChannelSignals
  inputs : Four Signal
  filters : Four (List FilterRun)
  terms : Four Term
  deriving DecidableEq, Repr

/-! ### The capture unit -/

/-- R3, R28: the origin part. -/
structure Origin where
  state : OriginState
  expected : IdSet
  responders : IdSet
  decliners : IdSet
  /-- `none` until the CALL is sent. -/
  deadline : Option Time
  /-- The close-begun mark. -/
  begun : Bool
  /-- The originating term. -/
  term : Option TermNo
  deriving DecidableEq, Repr

/-- R2: a capture entry. `uid` names the entry itself, apart from its tag (R6). -/
structure Entry where
  uid : Nat
  tag : Tag
  group : Group
  time : Time
  kind : CallKind
  retentionEnd : Time
  member : MemberState
  strobe : StrobeFlag
  origin : Option Origin
  deriving DecidableEq, Repr

/-- R32: the cadence schedule of a group: its next index. -/
structure Schedule where
  group : Group
  index : Nat
  deriving DecidableEq, Repr

/-- R129: a strobe line and its pulse end. -/
structure Strobe where
  high : Bool
  pulseEnd : Option Time
  deriving DecidableEq, Repr

/-- R1 to R49, R129. -/
structure Capture where
  table : List Entry
  declined : List Tag
  sequence : BitVec 16
  schedules : List Schedule
  strobe0 : Strobe
  strobe1 : Strobe
  nextUid : Nat
  deriving DecidableEq, Repr

/-! ### The link unit -/

/-- R145: the owner of a frame, and what of the owner's the frame belongs to (R6, R10, R151). -/
inductive Owner where
  /-- the capture unit, for the entry of that uid -/
  | entry (uid : Nat)
  /-- the capture unit, for a declined REPORT -/
  | declined (tag : Tag)
  /-- the time unit -/
  | time
  /-- the request unit, for the reply-list entry of that id -/
  | reply (id : Nat)
  /-- the station controller -/
  | controller
  deriving DecidableEq, Repr

/-- The content of an own frame; `none` where it is not composed yet (R146). -/
inductive Content where
  | call (f : CallFrame)
  | report (f : ReportFrame)
  | close (f : Option CloseFrame)
  | leave (reason : Byte)
  | beacon (f : Option BeaconFrame)
  | reply (requester : Ident) (f : Option ReplyFrame)
  deriving DecidableEq, Repr

/-- R142: a frame of the transmit queue. `started` says that it has had a start notice. -/
structure QFrame where
  owner : Owner
  content : Content
  age : Nat
  attempts : Nat
  started : Bool
  deriving DecidableEq, Repr

/-- R134, R138, R149: the frame in flight; `onWire` while its bits go out, else it awaits its retry; `finishing`
where the change out of JOINED found it on the wire. -/
structure Flight where
  frame : QFrame
  /-- R178: the bytes the link unit drives, in the layouts of chapter 10, from the frame's last start on. -/
  bytes : List Byte
  onWire : Bool
  finishing : Bool
  deriving DecidableEq, Repr

/-- R147: the link state, QUIET with its quiet end. -/
inductive LinkState where
  | active
  | quiet (quietEnd : Time)
  deriving DecidableEq, Repr

/-- R133, R142, R147, R150. -/
structure LinkUnit where
  /-- The frames not in flight, by class and age. -/
  queue : List QFrame
  flight : Option Flight
  discards : Nat
  state : LinkState
  /-- R133: the recessive bit times since the last dominant one; `none` while it is not kept. -/
  idleCount : Option Nat
  receiver : Receiver
  /-- R137: the bit boundary at which the error mark begins that this station drives or has driven last; `none` once the
  bus has been idle since. -/
  mark : Option Time
  nextAge : Nat
  deriving DecidableEq, Repr

/-! ### The request unit -/

/-- R151: a reply-list entry. -/
structure ReplyEntry where
  id : Nat
  requester : Ident
  kind : Byte
  result : ReplyResult
  composed : Bool
  deriving DecidableEq, Repr

/-- R151. -/
structure RequestUnit where
  refusal : RefusalRecord
  replies : List ReplyEntry
  quietMark : Bool
  nextId : Nat
  deriving DecidableEq, Repr

/-! ### The pins -/

/-- The inputs the outside drives: the levels and the causes the line receivers report, and the raw levels of the
digital inputs (R97, R103, R117). No reset changes them. -/
structure Pins where
  levels : Four Lines
  causes : Four Lines
  inputs : Four Bool
  deriving DecidableEq, Repr

end Sys2Proof.Machine
end

