-- ==== Sys2Proof/Machine/State.lean ====
section
/-!
DEFINITION. The state of the TQ-4 as plain data, block by block, with the queue of waiting commands, and the state
right after a reset has begun.
-/

namespace Sys2Proof.Machine

/-- Why the block could stop with a fault. The spec names no event that stops the part other than its own HALTED state,
which is a lifecycle state here (R169), so there is no reason: no command ever faults. -/
inductive Fault where
  deriving DecidableEq, Repr

/-- Why a command could be refused. -/
inductive Refusal where
  /-- Raised by `exec` for a command that has no meaning yet; safe, since the run stops there. No command is left so. -/
  | notModelled (mnemonic : String)
  deriving DecidableEq, Repr

/-- The whole part: its pins, its accepted image, its eight blocks, and the commands that wait, first in, first out. -/
structure State where
  pins : Pins
  image : Image
  ctrl : Controller
  time : TimeUnit
  chans : Four Channel
  hist : History
  trig : Trigger
  cap : Capture
  link : LinkUnit
  req : RequestUnit
  pending : List Instr
  deriving DecidableEq, Repr

/-- No image has been accepted: nothing is configured (assumption 6). -/
def Image.blank : Image where
  samplePeriod := 100
  modes := Four.all .off
  monitors := Four.all (Lines.all false)
  quietTime := 0
  filters := Four.all 0
  declared := 0
  groups := #v[⟨0, 0⟩, ⟨0, 0⟩, ⟨0, 0⟩, ⟨0, 0⟩, ⟨0, 0⟩, ⟨0, 0⟩, ⟨0, 0⟩, ⟨0, 0⟩]
  cadenceLead := 1
  collectWindow := 1
  busDelay := 0
  terms := Four.all ⟨.none, 0, .single, false, 0⟩
  strobe0 := ⟨none, 1⟩
  strobe1 := ⟨none, 1⟩

/-- R95: a channel after a reset. The spec gives the last (A, B) levels only from the start of counting on (R114); until
then, and in an OFF channel, the model holds them low (assumption 26). -/
def Channel.reset : Channel where
  count := 0
  epoch := 0
  quality := .unconfirmed
  recA := ⟨false, false⟩
  recB := ⟨false, false⟩
  recR := ⟨false, false⟩
  timer := none
  lastA := false
  lastB := false

/-- R119: a term after a reset. -/
def Term.reset : Term := ⟨.disarmed, false, false, false⟩

/-- R118: a signal after a reset: level low, stamp 0. -/
def Signal.reset : Signal := ⟨false, 0⟩

/-- R93. -/
def TimeUnit.reset : TimeUnit := ⟨0, 0, 0, .free, [], none⟩

/-- R69. -/
def History.reset : History := ⟨Four.all [], none, none, none, [], 0⟩

/-- R118, R119. -/
def Trigger.reset : Trigger where
  chans := Four.all ⟨Signal.reset, Signal.reset, Signal.reset⟩
  inputs := Four.all Signal.reset
  filters := Four.all []
  terms := Four.all Term.reset

/-- R26, R49, R129. -/
def Capture.reset : Capture := ⟨[], [], 0, [], ⟨false, none⟩, ⟨false, none⟩, 0⟩

/-- R150. -/
def LinkUnit.reset : LinkUnit := ⟨[], none, 0, .active, none, .waiting, none, 0⟩

/-- R151. -/
def RequestUnit.reset : RequestUnit := ⟨⟨.none, 0, 0⟩, [], false, 0⟩

/-- R163, R164: the station controller during a reset hold: no halt reason, no timer, both lines released, no identity. The
supply monitor, which R164 gives at the release alone, reads NORMAL in every hold, however it began, by the model's choice
(assumption 4). -/
def Controller.held (h : Hold) (cause : ResetCause) : Controller where
  hold := some h
  lifecycle := .loading
  resetCause := cause
  haltReason := none
  readFailures := 0
  listenTimer := none
  monitor := .normal
  identity := 0
  syncLine := false
  faultLine := false

/-- R163: every block at its reset values, with the hold that began so. The pins are the outside's, the reset cause is
kept until the release, and the commands that wait still wait. -/
def State.held (h : Hold) (cause : ResetCause) (pins : Pins) (waiting : List Instr) : State where
  pins := pins
  image := Image.blank
  ctrl := Controller.held h cause
  time := TimeUnit.reset
  chans := Four.all Channel.reset
  hist := History.reset
  trig := Trigger.reset
  cap := Capture.reset
  link := LinkUnit.reset
  req := RequestUnit.reset
  pending := waiting

/-- The pins as the model takes them at power-on: every level low, no cause present (assumption 5). -/
def Pins.quiet : Pins := ⟨Four.all (Lines.all false), Four.all (Lines.all false), Four.all false⟩

/-- The machine right after reset: a power-on reset has begun, its hold stands, and no command waits (assumption 4). -/
def State.reset : State := State.held ⟨.powerOn, false, false⟩ .power Pins.quiet []

end Sys2Proof.Machine
end

