-- ==== Sys2Proof/Machine/Clock.lean ====
section
/-!
DEFINITION. Comparing times (R72), converting between network time and local time (R71), the bits of a frame on the wire
(R133), and local time passing with the bit times that fall in it: the idle count and the start edges (R70, R133, R139).
-/

namespace Sys2Proof.Machine

/-- R72: `a` is later than `b`: the difference modulo 2^48 lies in 1 … 2^47 − 1. -/
def later (a b : Time) : Bool := decide (1 ≤ (a - b).toNat ∧ (a - b).toNat ≤ 2 ^ 47 - 1)

/-- R72: the difference of two times as a signed number. -/
def timeDiff (a b : Time) : Int := (a - b).toInt

/-- The later of two times. Of two times 2^47 apart neither is later (R72), and no rule says which one counts: the first
does, at every use the current network time, by the model's choice (assumption 33). -/
def laterOf (a b : Time) : Time := if later b a then b else a

/-- A time `n` ticks on, modulo 2^48. -/
def addTicks (t : Time) (n : Nat) : Time := t + BitVec.ofNat 48 n

/-- R71: the current network time. -/
def State.netTime (s : State) : Time := s.time.localTime + s.time.correction

/-- R71: the local instant of a network time, with the current correction. -/
def State.toLocal (s : State) (t : Time) : Time := t - s.time.correction

/-- Local time has reached the local time `t`: `t` is not later. A time exactly 2^47 ticks from local time is by R72 neither
in the past nor ahead; a rule that asks whether it is not later (R33, R64, R68) holds of it, and for a rule that speaks of
a time reached or passed (R9, R23, R24, R32, R37, R76) it counts as reached, by the model's choice (assumption 33). -/
def State.reached (s : State) (t : Time) : Bool := !later t s.time.localTime

/-- Local time has reached the local instant of the network time `t`. -/
def State.reachedNet (s : State) (t : Time) : Bool := s.reached (s.toLocal t)

/-- The part is out of reset. -/
def State.released (s : State) : Bool := s.ctrl.hold.isNone

/-- The station is past LOADING and not HALTED: the blocks run (R53, R95, R118, R148). -/
def State.running (s : State) : Bool :=
  s.released &&
    match s.ctrl.lifecycle with
    | .listening | .joined | .leaving | .withdrawn | .muted => true
    | .loading | .halted => false

/-! ### The bits on the bus (R133) -/

/-- The frame whose bits are going out. -/
def LinkUnit.onWire? (l : LinkUnit) : Option Flight :=
  match l.flight with
  | some fl => if fl.onWire then some fl else none
  | none => none

/-- R133: bit `k` of the bytes on the wire is dominant: each byte is a dominant start bit, its data bits with the most
significant first, a 0 dominant and a 1 recessive, and a recessive stop bit. -/
def dominantBit (bytes : List Byte) (k : Nat) : Bool :=
  match bytes[k / Config.byteBits]? with
  | some b =>
    match k % Config.byteBits with
    | 0 => true
    | 9 => false
    | j => !b.getLsbD (8 - j)
  | none => false

/-- R133, R137: the local times of the bit times in which this station itself drives the bus dominant, by the frame whose
bits are going out and by its error mark. -/
def LinkUnit.ownDominant (l : LinkUnit) : List Time :=
  (match l.onWire?, l.receiver with
    | some fl, .taking edge =>
      ((List.range (Config.byteBits * fl.bytes.length)).filter (dominantBit fl.bytes)).map (addTicks edge)
    | _, _ => []) ++
  match l.mark with
  | some m => (List.range Config.markBits).map (addTicks m)
  | none => []

/-- R133: the bit times from now on, by their distance, in which anyone drives the bus dominant: the others as the lapse
says, and this station. -/
def State.dominantIn (s : State) (dt : Lapse) : List Nat :=
  dt.dominant ++ s.link.ownDominant.map fun t => (t - s.time.localTime).toNat

/-- R133: an idle count of `count` after `n` more bit times, those of `dominant` dominant: the recessive ones since the
last dominant one. -/
def idleAfter (count : Nat) (dominant : List Nat) (n : Nat) : Nat :=
  match (dominant.filter fun k => decide (k < n)).max? with
  | some last => n - 1 - last
  | none => count + n

/-- R139: the first bit time of `dt` in which another station drives an idle bus dominant: the start bit of a frame, which
the receiver takes where it is not within one. -/
def State.startBit (s : State) (dt : Lapse) (count : Nat) : Option Nat :=
  match s.link.receiver with
  | .taking _ => none
  | .ready | .waiting =>
    (dt.dominant.filter fun k =>
      decide (k < dt.ticks ∧ Config.idleBits ≤ idleAfter count (s.dominantIn dt) k)).min?

/-- R139: at a start edge the receiver takes the frame that begins. The bus has been idle before it, so an own error mark
is past. -/
def LinkUnit.hear (l : LinkUnit) (edge : Option Time) : LinkUnit :=
  match edge with
  | some edge => { l with receiver := .taking edge, mark := none }
  | none => l

/-- R133, R139: the link unit after the bit times of `dt`, which it watches while the blocks run. -/
def State.watchBus (s : State) (dt : Lapse) : LinkUnit :=
  match s.running, s.link.idleCount with
  | true, some count =>
    LinkUnit.hear { s.link with idleCount := some (idleAfter count (s.dominantIn dt) dt.ticks) }
      ((s.startBit dt count).map (addTicks s.time.localTime))
  | _, _ => s.link

/-! ### Local time passing -/

/-- R70: local time `n` ticks on, with its place in the series of sample instants (R50). -/
def TimeUnit.tick (t : TimeUnit) (n : Nat) : TimeUnit :=
  { t with localTime := addTicks t.localTime n, phase := (t.phase + n) % Config.phaseTicks }

/-- R70: `dt` passes. Local time counts in every lifecycle state, and not while a reset is held. -/
def State.elapse (dt : Lapse) (s : State) : State :=
  match s.ctrl.hold with
  | some _ => s
  | none => { s with time := s.time.tick dt.ticks, link := s.watchBus dt }

/-- The lifecycle state is JOINED. -/
def State.joined (s : State) : Bool := s.released && decide (s.ctrl.lifecycle = .joined)

/-- The station declares the group (R7, R58). -/
def State.declares (s : State) (g : Group) : Bool := s.image.declared.getLsbD g.val

/-- R57: the channel map of a group. -/
def State.channelMap (s : State) (g : Group) : ChanSet := s.image.groups[g].map

/-- R96: the channel's mode is QUAD4 or PULSE-DIR. -/
def State.active (s : State) (c : Chan) : Bool := decide (s.image.modes.get c ≠ .off)

/-- The set of one identity. -/
def identBit (i : Ident) : IdSet := 1#32 <<< i.toNat

/-- Membership in a set of identities. -/
def hasIdent (set : IdSet) (i : Ident) : Bool := set.getLsbD i.toNat

end Sys2Proof.Machine
end

