-- ==== Sys2Proof/Machine/Flags.lean ====
section
/-!
DEFINITION. The flags and lines that follow from the rest of the state: the SYNC line (R92), the FAULT line (R113), the
blocked flag and ready mark of the terms (R120, R123), and the step every command ends with, which brings them up to
date.
-/

namespace Sys2Proof.Machine

/-- R92: JOINED and LOCKED. -/
def State.syncHolds (s : State) : Bool := decide (s.ctrl.lifecycle = .joined ∧ s.time.state = .locked)

/-- A channel has a latched flag set. -/
def Channel.anyLatched (c : Channel) : Bool := c.recA.latched || c.recB.latched || c.recR.latched

/-- R113: an active channel is FAULT or has a latched flag, or the state is HALTED or MUTED. -/
def State.faultHolds (s : State) : Bool :=
  four.any (fun i => s.active i && (decide ((s.chans.get i).quality = .fault) || (s.chans.get i).anyLatched)) ||
    decide (s.ctrl.lifecycle = .halted) || decide (s.ctrl.lifecycle = .muted)

/-- The levels of the three signals of a channel as a word, A first. -/
def ChannelSignals.word (c : ChannelSignals) : BitVec 3 :=
  BitVec.ofBool c.a.level ++ BitVec.ofBool c.b.level ++ BitVec.ofBool c.r.level

/-- The levels of the sixteen signals in the bit order of R184: CH0-A in bit 15, D3 in bit 0. -/
def Trigger.levels (t : Trigger) : BitVec 16 :=
  t.chans.x0.word ++ t.chans.x1.word ++ t.chans.x2.word ++ t.chans.x3.word ++ BitVec.ofBool t.inputs.x0.level ++
    BitVec.ofBool t.inputs.x1.level ++ BitVec.ofBool t.inputs.x2.level ++ BitVec.ofBool t.inputs.x3.level

/-- R120: every signal of the set stands at its required level. -/
def patternTrue (signals required levels : BitVec 16) : Bool := decide ((levels ^^^ required) &&& signals = 0)

/-- A line record that blocks a PATTERN term: its cause is present or its flag is latched (R123). -/
def LineRecord.doubtful (r : LineRecord) : Bool := r.cause || r.latched

/-- The doubtful records of a channel as a word, A first. -/
def Channel.doubtWord (c : Channel) : BitVec 3 :=
  BitVec.ofBool c.recA.doubtful ++ BitVec.ofBool c.recB.doubtful ++ BitVec.ofBool c.recR.doubtful

/-- The doubtful signals in the bit order of R184; the digital inputs have no line supervision. -/
def doubtSignals (chans : Four Channel) : BitVec 16 :=
  chans.x0.doubtWord ++ chans.x1.doubtWord ++ chans.x2.doubtWord ++ chans.x3.doubtWord ++ 0#4

/-- R123: whether a term with this condition is blocked. -/
def Condition.blocked (c : Condition) (chans : Four Channel) : Bool :=
  match c with
  | .none => false
  | .pattern signals _ => decide (doubtSignals chans &&& signals ≠ 0)
  | .cross chan _ _ => decide ((chans.get chan).quality = .fault)

/-- R123: the ready mark of a term that begins to be judged: set where its condition is false at that moment. A CROSS
term has no ready mark. -/
def Condition.readyNow (c : Condition) (levels : BitVec 16) : Bool :=
  match c with
  | .pattern signals required => !patternTrue signals required levels
  | .none => false
  | .cross _ _ _ => false

/-- R123: a term's blocked flag brought up to date: becoming blocked clears the ready mark, becoming unblocked while
JOINED sets it as the condition stands. -/
def Term.track (t : Term) (c : Condition) (blocked joined : Bool) (levels : BitVec 16) : Term :=
  if blocked = t.blocked then t
  else if blocked then { t with blocked := true, ready := false }
  else { t with blocked := false, ready := joined && c.readyNow levels }

/-- R123: every term's blocked flag brought up to date. -/
def State.trackTerms (s : State) : Four Term :=
  Four.build fun i =>
    let c := (s.image.terms.get i).condition
    (s.trig.terms.get i).track c (c.blocked s.chans) s.joined s.trig.levels

/-- What every command ends with: the blocked flags, the SYNC line and the FAULT line brought up to date. -/
def State.settle (s : State) : State :=
  { s with
    trig := { s.trig with terms := s.trackTerms }
    ctrl := { s.ctrl with syncLine := s.syncHolds, faultLine := s.faultHolds } }

/-- A command's effect `f`: `dt` ticks pass, the effect comes about, and the flags and lines follow. -/
def take (dt : Lapse) (f : State → State) (s : State) : Host.Outcome State Fault Refusal :=
  .next (f (s.elapse dt)).settle

end Sys2Proof.Machine
end

