-- ==== Sys2Proof/Machine/Channel.lean ====
section
/-!
DEFINITION. The channel unit: counting (R97 to R101), line records (R102, R103), quality (R104 to R106), the
auto-acknowledge timer (R107, R108), FAULT-ACK and applied presets from the channel's side (R109, R111).
-/

namespace Sys2Proof.Machine

/-- What a step does to the count of a channel in its mode. -/
inductive Move where
  | none | up | down | skip
  deriving DecidableEq, Repr

/-- R98: the position of an (A, B) pair in the counting sequence low-low, high-low, high-high, low-high. -/
def quadPhase (a b : Bool) : BitVec 2 :=
  match a, b with
  | false, false => 0
  | true, false => 1
  | true, true => 2
  | false, true => 3

/-- R98, R99: the move of a QUAD4 step: one place on in the sequence counts up, one place back counts down, two places
is a phase skip. -/
def quadMove (lastA lastB a b : Bool) : Move :=
  match (quadPhase a b - quadPhase lastA lastB).toNat with
  | 0 => .none
  | 1 => .up
  | 2 => .skip
  | _ => .down

/-- R100: the move of a PULSE-DIR step: a rising A counts by the level B held before the step. -/
def pulseMove (lastA lastB a : Bool) : Move :=
  if !lastA && a then (if lastB then .up else .down) else .none

/-- The move of a step in a channel mode. -/
def ChannelMode.move (m : ChannelMode) (lastA lastB a b : Bool) : Move :=
  match m with
  | .off => .none
  | .quad4 => quadMove lastA lastB a b
  | .pulseDir => pulseMove lastA lastB a

/-- R107: the auto-acknowledge timer started at local time `now`; at a quiet time of 0 it never runs. -/
def startTimer (quietTime : Nat) (now : Time) : Option Time :=
  if quietTime = 0 then none else some (addTicks now (quietTime * Config.ticksPerMs))

/-- R99: a phase skip marks the doubt, unless the channel is FAULT. -/
def Channel.skip (c : Channel) (quietTime : Nat) (now : Time) : Channel :=
  match c.quality with
  | .fault => c
  | .good | .unconfirmed => { c with quality := .unconfirmed, timer := startTimer quietTime now }

/-- R101: the count moved by `by_`, unless the channel is FAULT. -/
def Channel.bump (c : Channel) (by_ : Count) : Channel :=
  match c.quality with
  | .fault => c
  | .good | .unconfirmed => { c with count := c.count + by_ }

/-- R98 to R101: the decoder takes a step to the levels `a`, `b`. -/
def Channel.decode (c : Channel) (m : ChannelMode) (a b : Bool) (quietTime : Nat) (now : Time) : Channel :=
  let moved :=
    match m.move c.lastA c.lastB a b with
    | .none => c
    | .up => c.bump 1
    | .down => c.bump (-1)
    | .skip => c.skip quietTime now
  { moved with lastA := a, lastB := b }

/-- The line record of a line. -/
def Channel.record (c : Channel) : Line → LineRecord
  | .a => c.recA
  | .b => c.recB
  | .r => c.recR

/-- The channel with another record for a line. -/
def Channel.setRecord (c : Channel) (n : Line) (r : LineRecord) : Channel :=
  match n with
  | .a => { c with recA := r }
  | .b => { c with recB := r }
  | .r => { c with recR := r }

/-- A cause on A or B is present. Unmonitored records read absent, so only monitored causes count (R104). -/
def Channel.countCause (c : Channel) : Bool := c.recA.cause || c.recB.cause

/-- R103, R104: a cause appears on a monitored line. -/
def Channel.causeAppears (c : Channel) (n : Line) : Channel :=
  let c := c.setRecord n ⟨true, true⟩
  match n with
  | .a | .b => { c with quality := .fault, timer := none }
  | .r => c

/-- R103, R105: a cause disappears from a monitored line; the last A or B cause to go takes a FAULT channel to
UNCONFIRMED. -/
def Channel.causeDisappears (c : Channel) (n : Line) (quietTime : Nat) (now : Time) : Channel :=
  let c := c.setRecord n { c.record n with cause := false }
  match n, c.quality with
  | .a, .fault | .b, .fault =>
    if c.countCause then c else { c with quality := .unconfirmed, timer := startTimer quietTime now }
  | _, _ => c

/-- R106: the flag is cleared where its cause is absent. -/
def LineRecord.clear (r : LineRecord) : LineRecord := if r.cause then r else { r with latched := false }

/-- R106: the latched flags of A, B and R whose causes are absent cleared. -/
def Channel.clearFlags (c : Channel) : Channel :=
  { c with recA := c.recA.clear, recB := c.recB.clear, recR := c.recR.clear }

/-- R106: an acknowledgement of a channel that is not FAULT. -/
def Channel.acknowledge (c : Channel) : Channel := { c.clearFlags with quality := .good, timer := none }

/-- R109: a FAULT-ACK that selects the channel. -/
def Channel.faultAck (c : Channel) : Channel :=
  match c.quality with
  | .unconfirmed => c.acknowledge
  | .good => c.clearFlags
  | .fault => { c with recR := c.recR.clear }

/-- R66, R111: a preset is applied to the channel. -/
def Channel.preset (c : Channel) (value : Count) : Channel :=
  let c := { c with count := value, epoch := c.epoch + 1 }
  match c.quality with
  | .fault => c
  | .good | .unconfirmed => c.acknowledge

/-- R114: a monitored record that starts with its front end's cause: a cause present is an appearance. -/
def Channel.startLine (c : Channel) (monitors causes : Lines) (n : Line) : Channel :=
  if monitors.get n && causes.get n then c.causeAppears n else c

/-- R114: an active channel starts from its reset values, at the front end's levels and causes; an OFF channel stays at
its reset values (R96). -/
def Channel.start (m : ChannelMode) (monitors levels causes : Lines) : Channel :=
  match m with
  | .off => Channel.reset
  | .quad4 | .pulseDir =>
    let c := { Channel.reset with lastA := levels.a, lastB := levels.b }
    ((c.startLine monitors causes .a).startLine monitors causes .b).startLine monitors causes .r

/-- The state with channel `i` changed by `f`. -/
def State.onChannel (s : State) (i : Chan) (f : Channel → Channel) : State :=
  { s with chans := s.chans.set i (f (s.chans.get i)) }

/-- R66: a preset's value handed to every channel of its set. -/
def State.presetChannels (s : State) (chans : ChanSet) (value : Count) : State :=
  { s with chans := Four.build fun i =>
      if chans.getLsbD i.val then (s.chans.get i).preset value else s.chans.get i }

/-- R109: a FAULT-ACK handed to every selected active channel. -/
def State.ackChannels (s : State) (chans : ChanSet) : State :=
  { s with chans := Four.build fun i =>
      if chans.getLsbD i.val && s.active i then (s.chans.get i).faultAck else s.chans.get i }

/-- R109, R156: a selected active channel is found in FAULT. -/
def State.stillPresent (s : State) (chans : ChanSet) : Bool :=
  four.any fun i => chans.getLsbD i.val && s.active i && decide ((s.chans.get i).quality = .fault)

/-- The front end's cause of a line changes. -/
def State.setCausePin (s : State) (i : Chan) (n : Line) (x : Bool) : State :=
  { s with pins := { s.pins with causes := s.pins.causes.set i ((s.pins.causes.get i).set n x) } }

/-- The channel unit takes causes of this line: it runs, the channel is active and the line is monitored (R95, R102). -/
def State.monitored (s : State) (i : Chan) (n : Line) : Bool :=
  s.running && s.active i && (s.image.monitors.get i).get n

/-- R103: the front end's level of a line goes from absent to present. -/
def State.causeAppears (i : Chan) (n : Line) (s : State) : State :=
  if (s.pins.causes.get i).get n then s
  else
    let t := s.setCausePin i n true
    if s.monitored i n then t.onChannel i (fun c => c.causeAppears n) else t

/-- R103, R105: the front end's level of a line goes from present to absent. -/
def State.causeDisappears (i : Chan) (n : Line) (s : State) : State :=
  if (s.pins.causes.get i).get n then
    let t := s.setCausePin i n false
    if s.monitored i n then
      t.onChannel i (fun c => c.causeDisappears n s.image.quietTime s.time.localTime)
    else t
  else s

/-- R108: a running timer whose expiry local time has reached. -/
def State.autoAckDue (s : State) (i : Chan) : Bool :=
  match (s.chans.get i).timer with
  | some e => s.running && s.reached e
  | none => false

/-- R108: the auto-acknowledge timer expires. -/
def State.autoAck (i : Chan) (s : State) : State :=
  if s.autoAckDue i then s.onChannel i Channel.acknowledge else s

/-- LINE_CAUSE_APPEARS (R103). -/
def execLineCauseAppears (dt : Lapse) (i : Chan) (n : Line) (s : State) : Host.Outcome State Fault Refusal :=
  take dt (State.causeAppears i n) s

/-- LINE_CAUSE_DISAPPEARS (R103, R105). -/
def execLineCauseDisappears (dt : Lapse) (i : Chan) (n : Line) (s : State) : Host.Outcome State Fault Refusal :=
  take dt (State.causeDisappears i n) s

/-- AUTO_ACK_TIMER_EXPIRY (R108). -/
def execAutoAckTimerExpiry (dt : Lapse) (i : Chan) (s : State) : Host.Outcome State Fault Refusal :=
  take dt (State.autoAck i) s

end Sys2Proof.Machine
end

