-- ==== Sys2Proof/Machine/Operands.lean ====
section
/-!
DEFINITION. The byte forms of the operands: the frames of the peer bus, encoded and decoded with every check that makes
a frame well-formed (R135, R140, R178 to R183), and the configuration image with its CRC and range checks (R167, R168,
R184).
-/

namespace Sys2Proof.Machine

/-! ### CRC (R135, R178) -/

/-- One bit of the shift register with generator x^16 + x^12 + x^5 + 1. -/
def crcShift (reg : BitVec 16) : BitVec 16 :=
  if reg.getLsbD 15 then (reg <<< 1) ^^^ 0x1021#16 else reg <<< 1

/-- One byte, most significant bit first. -/
def crcByte (reg : BitVec 16) (b : Byte) : BitVec 16 :=
  crcShift (crcShift (crcShift (crcShift (crcShift (crcShift (crcShift (crcShift
    (reg ^^^ (b.setWidth 16 <<< 8)))))))))

/-- The CRC of a string of bytes, from a register of all ones, not inverted at the end. -/
def crc16 (bytes : List Byte) : BitVec 16 := bytes.foldl crcByte 0xFFFF#16

/-! ### Multi-byte fields, most significant byte first (R179) -/

/-- Byte `n` of a word, counted from the least significant. -/
def byteAt {w : Nat} (x : BitVec w) (n : Nat) : Byte := x.extractLsb' (8 * n) 8

/-- Two bytes of a 16-bit field. -/
def bytes2 (x : BitVec 16) : List Byte := [byteAt x 1, byteAt x 0]

/-- Four bytes of a 32-bit field. -/
def bytes4 (x : BitVec 32) : List Byte := [byteAt x 3, byteAt x 2, byteAt x 1, byteAt x 0]

/-- Six bytes of a time. -/
def bytes6 (x : Time) : List Byte := [byteAt x 5, byteAt x 4, byteAt x 3, byteAt x 2, byteAt x 1, byteAt x 0]

/-- A 16-bit field from its bytes. -/
def word2 (a b : Byte) : BitVec 16 := a ++ b

/-- A 32-bit field from its bytes. -/
def word4 (a b c d : Byte) : BitVec 32 := a ++ b ++ c ++ d

/-- A time from its bytes. -/
def word6 (a b c d e f : Byte) : Time := a ++ b ++ c ++ d ++ e ++ f

/-- A small number as a byte. -/
def byteOf (n : Nat) : Byte := BitVec.ofNat 8 n

/-! ### Readers: each takes its field from the front of the bytes, or refuses an ill-formed value -/

/-- One byte. -/
def takeByte : List Byte → Option (Byte × List Byte)
  | b :: rest => some (b, rest)
  | [] => none

/-- A 16-bit field. -/
def take2 : List Byte → Option (BitVec 16 × List Byte)
  | a :: b :: rest => some (word2 a b, rest)
  | _ => none

/-- A 32-bit field. -/
def take4 : List Byte → Option (BitVec 32 × List Byte)
  | a :: b :: c :: d :: rest => some (word4 a b c d, rest)
  | _ => none

/-- A network time. -/
def take6 : List Byte → Option (Time × List Byte)
  | a :: b :: c :: d :: e :: f :: rest => some (word6 a b c d e f, rest)
  | _ => none

/-- A byte that `f` gives a meaning. -/
def takeCoded {α : Type} (f : Byte → Option α) (bytes : List Byte) : Option (α × List Byte) :=
  match takeByte bytes with
  | some (b, rest) => (f b).map (fun x => (x, rest))
  | none => none

/-- R179: an identity, 1 to 31. -/
def identOf (b : Byte) : Option Ident :=
  if 1 ≤ b.toNat ∧ b.toNat ≤ 31 then some (b.setWidth 5) else none

/-- R179: a group, 0 to 7. -/
def groupOf (b : Byte) : Option Group := if h : b.toNat < 8 then some ⟨b.toNat, h⟩ else none

/-- R179: a set of identities, bit 0 clear. -/
def takeIdSet (bytes : List Byte) : Option (IdSet × List Byte) :=
  match take4 bytes with
  | some (w, rest) => if w.getLsbD 0 then none else some (w, rest)
  | none => none

/-- R179. -/
def timeStateOf (b : Byte) : Option TimeState :=
  match b.toNat with
  | 0 => some .free
  | 1 => some .locking
  | 2 => some .locked
  | _ => none

/-- R179. -/
def timeStateCode : TimeState → Byte
  | .free => 0
  | .locking => 1
  | .locked => 2

/-- R179. -/
def lifecycleOf (b : Byte) : Option Lifecycle :=
  match b.toNat with
  | 0 => some .loading
  | 1 => some .halted
  | 2 => some .listening
  | 3 => some .joined
  | 4 => some .leaving
  | 5 => some .withdrawn
  | 6 => some .muted
  | _ => none

/-- R179. -/
def lifecycleCode : Lifecycle → Byte
  | .loading => 0
  | .halted => 1
  | .listening => 2
  | .joined => 3
  | .leaving => 4
  | .withdrawn => 5
  | .muted => 6

/-- R179. -/
def causeOf (b : Byte) : Option ResetCause :=
  match b.toNat with
  | 0 => some .power
  | 1 => some .pin
  | 2 => some .supply
  | _ => none

/-- R179. -/
def causeCode : ResetCause → Byte
  | .power => 0
  | .pin => 1
  | .supply => 2

/-- R179: a tag field: its kind, its first number, its second number. -/
def tagOf (kind first : Byte) (second : BitVec 16) : Option Tag :=
  match kind.toNat with
  | 0 => (identOf first).map (fun i => .station i second)
  | 1 => (groupOf first).map (fun g => .cadence g second)
  | _ => none

/-- R179: a tag field. -/
def takeTag : List Byte → Option (Tag × List Byte)
  | k :: f :: a :: b :: rest => (tagOf k f (word2 a b)).map (fun t => (t, rest))
  | _ => none

/-- R179. -/
def tagBytes : Tag → List Byte
  | .station i n => [0, i.setWidth 8] ++ bytes2 n
  | .cadence g n => [1, byteOf g.val] ++ bytes2 n

/-- R181. -/
def callKindOf (b : Byte) : Option CallKind :=
  match b.toNat with
  | 0 => some .triggered
  | 1 => some .cadence
  | 2 => some .scheduled
  | _ => none

/-- R181. -/
def callKindCode : CallKind → Byte
  | .triggered => 0
  | .cadence => 1
  | .scheduled => 2

/-- A flag byte: 0 clear, 1 set. -/
def flagOf (b : Byte) : Option Bool :=
  match b.toNat with
  | 0 => some false
  | 1 => some true
  | _ => none

/-- A flag byte. -/
def flagCode (x : Bool) : Byte := if x then 1 else 0

/-- R182. -/
def declineOf (b : Byte) : Option DeclineReason :=
  match b.toNat with
  | 0 => some .none
  | 1 => some .far
  | 2 => some .tableFull
  | _ => none

/-- R182. -/
def declineCode : DeclineReason → Byte
  | .none => 0
  | .far => 1
  | .tableFull => 2

/-- R182, R183: a quality code. -/
def qualityOf (n : Nat) : Option Quality :=
  match n with
  | 0 => some .good
  | 1 => some .unconfirmed
  | 2 => some .fault
  | _ => none

/-- R182, R183. -/
def qualityCode : Quality → BitVec 2
  | .good => 0
  | .unconfirmed => 1
  | .fault => 2

/-- R183. -/
def resultOf (b : Byte) : Option ReplyResult :=
  match b.toNat with
  | 0 => some .done
  | 1 => some .noTerm
  | 2 => some .stillPresent
  | 3 => some .unknown
  | _ => none

/-- R183. -/
def resultCode : ReplyResult → Byte
  | .done => 0
  | .noTerm => 1
  | .stillPresent => 2
  | .unknown => 3

/-- R183. -/
def refusalOf (b : Byte) : Option RefusalReason :=
  match b.toNat with
  | 0 => some .none
  | 1 => some .late
  | 2 => some .far
  | 3 => some .full
  | 4 => some .crowded
  | _ => none

/-- R183. -/
def refusalCode : RefusalReason → Byte
  | .none => 0
  | .late => 1
  | .far => 2
  | .full => 3
  | .crowded => 4

/-- A count byte of at least `low` and at most `high` (R183). -/
def countOf (low high : Nat) (b : Byte) : Option Nat :=
  if low ≤ b.toNat ∧ b.toNat ≤ high then some b.toNat else none

/-! ### Payloads -/

/-- R180. -/
def BeaconFrame.encode (f : BeaconFrame) : List Byte :=
  bytes6 f.stamp ++ [f.groups, lifecycleCode f.lifecycle, timeStateCode f.timeState, causeCode f.cause]

/-- R180. -/
def BeaconFrame.decode (p : List Byte) : Option BeaconFrame := do
  let (stamp, p) ← take6 p
  let (groups, p) ← takeByte p
  let (lifecycle, p) ← takeCoded lifecycleOf p
  let (timeState, p) ← takeCoded timeStateOf p
  let (cause, p) ← takeCoded causeOf p
  if p = [] then some ⟨stamp, groups, lifecycle, timeState, cause⟩ else none

/-- R180: LEAVE has no ill-formed reason. -/
def leaveDecode (p : List Byte) : Option Byte := do
  let (reason, p) ← takeByte p
  if p = [] then some reason else none

/-- R181. -/
def CallFrame.encode (f : CallFrame) : List Byte :=
  tagBytes f.tag ++ [byteOf f.group.val] ++ bytes6 f.time ++ [callKindCode f.kind, flagCode f.fireLost]

/-- R181. -/
def CallFrame.decode (p : List Byte) : Option CallFrame := do
  let (tag, p) ← takeTag p
  let (group, p) ← takeCoded groupOf p
  let (time, p) ← take6 p
  let (kind, p) ← takeCoded callKindOf p
  let (fireLost, p) ← takeCoded flagOf p
  if p = [] then some ⟨tag, group, time, kind, fireLost⟩ else none

/-- R181: what makes a CLOSE ill-formed beyond its fields' encodings: sets that share an identity, or an outcome that
disagrees with the missing set. -/
def CloseFrame.consistent (f : CloseFrame) : Bool :=
  decide (f.responders &&& f.decliners = 0 ∧ f.responders &&& f.missing = 0 ∧ f.decliners &&& f.missing = 0) &&
    (f.complete == decide (f.missing = 0))

/-- R181. -/
def CloseFrame.encode (f : CloseFrame) : List Byte :=
  tagBytes f.tag ++ [flagCode (!f.complete)] ++ bytes4 f.responders ++ bytes4 f.decliners ++ bytes4 f.missing

/-- R181. -/
def CloseFrame.decode (p : List Byte) : Option CloseFrame := do
  let (tag, p) ← takeTag p
  let (parted, p) ← takeCoded flagOf p
  let (responders, p) ← takeIdSet p
  let (decliners, p) ← takeIdSet p
  let (missing, p) ← takeIdSet p
  let f : CloseFrame := ⟨tag, !parted, responders, decliners, missing⟩
  if p = [] ∧ f.consistent then some f else none

/-- R180. -/
def PresetFrame.encode (f : PresetFrame) : List Byte := [byteOf f.group.val] ++ bytes6 f.time ++ bytes4 f.value

/-- R180. -/
def PresetFrame.decode (p : List Byte) : Option PresetFrame := do
  let (group, p) ← takeCoded groupOf p
  let (time, p) ← take6 p
  let (value, p) ← take4 p
  if p = [] then some ⟨group, time, value⟩ else none

/-- R180. -/
def RequestFrame.encode (f : RequestFrame) : List Byte := [f.target.setWidth 8, f.kind, f.argA, f.argB]

/-- R180. -/
def RequestFrame.decode (p : List Byte) : Option RequestFrame := do
  let (target, p) ← takeCoded identOf p
  let (kind, p) ← takeByte p
  let (argA, p) ← takeByte p
  let (argB, p) ← takeByte p
  if p = [] then some ⟨target, kind, argA, argB⟩ else none

/-- R182: the header byte of a channel entry. -/
def entryHeader (chan : Chan) (quality : BitVec 2) (after : Bool) : Byte :=
  BitVec.ofNat 2 chan.val ++ quality ++ BitVec.ofBool after ++ 0#3

/-- R182. -/
def ChannelEntry.encode (e : ChannelEntry) : List Byte :=
  match e.reading with
  | .stale => [entryHeader e.chan 3 false]
  | .sampled q b none => [entryHeader e.chan (qualityCode q) false] ++ bytes4 b.count ++ bytes2 b.offset ++ [b.epoch]
  | .sampled q b (some a) =>
    [entryHeader e.chan (qualityCode q) true] ++ bytes4 b.count ++ bytes2 b.offset ++ [b.epoch] ++ bytes4 a.count ++
      bytes2 a.offset

/-- R182: a before offset lies in −1,000 … 0. -/
def beforeOffsetOk (o : BitVec 16) : Bool := decide (-1000 ≤ o.toInt ∧ o.toInt ≤ 0)

/-- R182: an after offset lies in 1 … 1,000. -/
def afterOffsetOk (o : BitVec 16) : Bool := decide (1 ≤ o.toInt ∧ o.toInt ≤ 1000)

/-- R182: the before fields. -/
def takeBefore (p : List Byte) : Option (BeforeSample × List Byte) := do
  let (count, p) ← take4 p
  let (offset, p) ← take2 p
  let (epoch, p) ← takeByte p
  if beforeOffsetOk offset then some (⟨count, offset, epoch⟩, p) else none

/-- R182: the after fields. -/
def takeAfter (p : List Byte) : Option (AfterSample × List Byte) := do
  let (count, p) ← take4 p
  let (offset, p) ← take2 p
  if afterOffsetOk offset then some (⟨count, offset⟩, p) else none

/-- R182: one channel entry. -/
def takeEntry (p : List Byte) : Option (ChannelEntry × List Byte) := do
  let (h, p) ← takeByte p
  if h.extractLsb' 0 3 ≠ 0 then none
  else
    let chan : Chan := (h.extractLsb' 6 2).toFin
    let after := h.getLsbD 3
    match qualityOf (h.extractLsb' 4 2).toNat, after with
    | none, true => none
    | none, false => some (⟨chan, .stale⟩, p)
    | some q, false => do
      let (b, p) ← takeBefore p
      some (⟨chan, .sampled q b none⟩, p)
    | some q, true => do
      let (b, p) ← takeBefore p
      let (a, p) ← takeAfter p
      some (⟨chan, .sampled q b (some a)⟩, p)

/-- R182: so many channel entries. -/
def takeEntries : Nat → List Byte → Option (List ChannelEntry × List Byte)
  | 0, p => some ([], p)
  | n + 1, p => do
    let (e, p) ← takeEntry p
    let (es, p) ← takeEntries n p
    some (e :: es, p)

/-- R182: the channel numbers ascend strictly. -/
def ascending : List ChannelEntry → Bool
  | e :: f :: rest => decide (e.chan < f.chan) && ascending (f :: rest)
  | _ => true

/-- R182. -/
def ReportFrame.encode (f : ReportFrame) : List Byte :=
  tagBytes f.tag ++ [timeStateCode f.timeState, declineCode f.reason, byteOf f.entries.length] ++
    f.entries.flatMap ChannelEntry.encode

/-- R182: the checks of a REPORT beyond its fields' encodings. -/
def ReportFrame.consistent (f : ReportFrame) : Bool :=
  ascending f.entries && (decide (f.reason = .none) || f.entries.isEmpty)

/-- R182. -/
def ReportFrame.decode (p : List Byte) : Option ReportFrame := do
  let (tag, p) ← takeTag p
  let (timeState, p) ← takeCoded timeStateOf p
  let (reason, p) ← takeCoded declineOf p
  let (n, p) ← takeCoded (countOf 0 4) p
  let (entries, p) ← takeEntries n p
  let f : ReportFrame := ⟨tag, timeState, reason, entries⟩
  if p = [] ∧ f.consistent then some f else none

/-- R183: a channel's status byte. -/
def statusByte (c : ChannelStatus) : Byte :=
  qualityCode c.quality ++ BitVec.ofBool c.latched.a ++ BitVec.ofBool c.latched.b ++ BitVec.ofBool c.latched.r ++
    BitVec.ofBool c.causes.a ++ BitVec.ofBool c.causes.b ++ BitVec.ofBool c.causes.r

/-- R183: a channel of the snapshot. -/
def ChannelStatus.encode (c : ChannelStatus) : List Byte := [statusByte c] ++ bytes4 c.count ++ [c.epoch]

/-- R183. -/
def takeChannelStatus (p : List Byte) : Option (ChannelStatus × List Byte) := do
  let (s, p) ← takeByte p
  let quality ← qualityOf (s.extractLsb' 6 2).toNat
  let (count, p) ← take4 p
  let (epoch, p) ← takeByte p
  some (⟨quality, ⟨s.getLsbD 5, s.getLsbD 4, s.getLsbD 3⟩, ⟨s.getLsbD 2, s.getLsbD 1, s.getLsbD 0⟩, count, epoch⟩, p)

/-- R183. -/
def termPhaseOf (n : Nat) : Option TermPhase :=
  match n with
  | 0 => some .disarmed
  | 1 => some .armed
  | 2 => some .holdoff
  | _ => none

/-- R183. -/
def termPhaseCode : TermPhase → BitVec 2
  | .disarmed => 0
  | .armed => 1
  | .holdoff => 2

/-- R183: a term byte. -/
def TermStatus.encode (t : TermStatus) : Byte :=
  termPhaseCode t.phase ++ BitVec.ofBool t.blocked ++ BitVec.ofBool t.fireLost ++ 0#4

/-- R183. -/
def termStatusOf (b : Byte) : Option TermStatus :=
  if b.extractLsb' 0 4 ≠ 0 then none
  else (termPhaseOf (b.extractLsb' 6 2).toNat).map (fun p => ⟨p, b.getLsbD 5, b.getLsbD 4⟩)

/-- R183: the refusal sender, 0 for none. -/
def senderOf (b : Byte) : Option Ident := if b.toNat ≤ 31 then some (b.setWidth 5) else none

/-- R183: bytes 3 to 44 of a REPLY. -/
def Snapshot.encode (s : Snapshot) : List Byte :=
  [lifecycleCode s.lifecycle, causeCode s.cause, timeStateCode s.timeState, flagCode s.quiet, byteOf s.admitted,
    byteOf s.suspect, byteOf s.heard] ++
  s.chans.x0.encode ++ s.chans.x1.encode ++ s.chans.x2.encode ++ s.chans.x3.encode ++
  [s.terms.x0.encode, s.terms.x1.encode, s.terms.x2.encode, s.terms.x3.encode,
    refusalCode s.refusal.reason, s.refusal.sender.setWidth 8, byteOf s.refusal.group.val,
    byteOf s.tableEntries, byteOf s.originEntries, byteOf s.queueFrames, byteOf s.presets]

/-- R183. -/
def takeSnapshot (p : List Byte) : Option (Snapshot × List Byte) := do
  let (lifecycle, p) ← takeCoded lifecycleOf p
  let (cause, p) ← takeCoded causeOf p
  let (timeState, p) ← takeCoded timeStateOf p
  let (quiet, p) ← takeCoded flagOf p
  let (admitted, p) ← takeCoded (countOf 0 30) p
  let (suspect, p) ← takeCoded (countOf 0 30) p
  let (heard, p) ← takeCoded (countOf 0 30) p
  let (c0, p) ← takeChannelStatus p
  let (c1, p) ← takeChannelStatus p
  let (c2, p) ← takeChannelStatus p
  let (c3, p) ← takeChannelStatus p
  let (t0, p) ← takeCoded termStatusOf p
  let (t1, p) ← takeCoded termStatusOf p
  let (t2, p) ← takeCoded termStatusOf p
  let (t3, p) ← takeCoded termStatusOf p
  let (reason, p) ← takeCoded refusalOf p
  let (sender, p) ← takeCoded senderOf p
  let (group, p) ← takeCoded groupOf p
  let (tableEntries, p) ← takeCoded (countOf 0 16) p
  let (originEntries, p) ← takeCoded (countOf 0 4) p
  let (queueFrames, p) ← takeCoded (countOf 1 12) p
  let (presets, p) ← takeCoded (countOf 0 4) p
  some (⟨lifecycle, cause, timeState, quiet, admitted, suspect, heard, ⟨c0, c1, c2, c3⟩, ⟨t0, t1, t2, t3⟩,
    ⟨reason, sender, group⟩, tableEntries, originEntries, queueFrames, presets⟩, p)

/-- R183. -/
def ReplyFrame.encode (f : ReplyFrame) : List Byte :=
  [f.requester.setWidth 8, f.kind, resultCode f.result] ++ f.snapshot.encode

/-- R183. -/
def ReplyFrame.decode (p : List Byte) : Option ReplyFrame := do
  let (requester, p) ← takeCoded identOf p
  let (kind, p) ← takeByte p
  let (result, p) ← takeCoded resultOf p
  let (snapshot, p) ← takeSnapshot p
  if p = [] then some ⟨requester, kind, result, snapshot⟩ else none

/-! ### The frame envelope (R178) -/

/-- R178: the kind code. -/
def Body.kindCode : Body → BitVec 4
  | .beacon _ => 1
  | .leave _ => 2
  | .call _ => 3
  | .report _ => 4
  | .close _ => 5
  | .preset _ => 6
  | .request _ => 7
  | .reply _ => 8

/-- The payload of a frame. -/
def Body.encode : Body → List Byte
  | .beacon f => f.encode
  | .leave reason => [reason]
  | .call f => f.encode
  | .report f => f.encode
  | .close f => f.encode
  | .preset f => f.encode
  | .request f => f.encode
  | .reply f => f.encode

/-- The body of a kind code and a payload; none for an unknown kind or an ill-formed payload. -/
def Body.decode (kind : BitVec 4) (p : List Byte) : Option Body :=
  match kind.toNat with
  | 1 => (BeaconFrame.decode p).map .beacon
  | 2 => (leaveDecode p).map .leave
  | 3 => (CallFrame.decode p).map .call
  | 4 => (ReportFrame.decode p).map .report
  | 5 => (CloseFrame.decode p).map .close
  | 6 => (PresetFrame.decode p).map .preset
  | 7 => (RequestFrame.decode p).map .request
  | 8 => (ReplyFrame.decode p).map .reply
  | _ => none

/-- R135: the priority byte. -/
def priorityByte (cls : BitVec 2) (sender : Ident) : Byte := 0#1 ++ cls ++ sender

/-- R178: the whole frame on the wire. -/
def Frame.encode (f : Frame) : List Byte :=
  let p := f.body.encode
  let covered := [f.body.kindCode ++ 0#4, byteOf p.length] ++ p
  [priorityByte f.cls f.sender] ++ covered ++ bytes2 (crc16 covered)

/-- R140, R178: the frame of received bytes; none where any check makes them ill-formed. -/
def Frame.decode : List Byte → Option Frame
  | p :: k :: n :: rest =>
    let payload := rest.take n.toNat
    let sender : Ident := p.extractLsb' 0 5
    if p.getLsbD 7 then none
    else if Config.maxPayload < n.toNat then none
    else if rest.length ≠ n.toNat + 2 then none
    else if rest.drop n.toNat ≠ bytes2 (crc16 ([k, n] ++ payload)) then none
    else if k.extractLsb' 0 4 ≠ 0 then none
    else if sender = 0 then none
    else (Body.decode (k.extractLsb' 4 4) payload).map (fun b => ⟨p.extractLsb' 5 2, sender, b⟩)
  | _ => none

/-! ### What a REQUEST asks (R153, R180) -/

/-- A REQUEST's kind and argument as the request unit reads them. -/
inductive Request where
  | status
  | arm (term : TermNo)
  | disarm (term : TermNo)
  | faultAck (chans : ChanSet)
  | unknown
  deriving DecidableEq, Repr

/-- R153, R180: how the request unit reads kind and argument bytes. -/
def RequestFrame.read (f : RequestFrame) : Request :=
  match f.kind.toNat with
  | 1 => .status
  | 2 =>
    if h : f.argA.toNat < 4 then
      match f.argB.toNat with
      | 1 => .arm ⟨f.argA.toNat, h⟩
      | 2 => .disarm ⟨f.argA.toNat, h⟩
      | _ => .unknown
    else .unknown
  | 3 => if f.argA.toNat < 16 then .faultAck (f.argA.setWidth 4) else .unknown
  | _ => .unknown

/-! ### The configuration image (R167, R168, R184) -/

/-- Byte `n` of the image. -/
def imageByte (bytes : List Byte) (n : Nat) : Byte := bytes.getD n 0

/-- The 16-bit field at byte `n`. -/
def imageWord (bytes : List Byte) (n : Nat) : BitVec 16 := word2 (imageByte bytes n) (imageByte bytes (n + 1))

/-- R184: the sample period of a code. -/
def samplePeriodOf (b : Byte) : Option Nat :=
  match b.toNat with
  | 0 => some 100
  | 1 => some 200
  | 2 => some 500
  | 3 => some 1000
  | _ => none

/-- R184: a channel mode. -/
def channelModeOf (n : Nat) : Option ChannelMode :=
  match n with
  | 0 => some .off
  | 1 => some .quad4
  | 2 => some .pulseDir
  | _ => none

/-- R184, R117: a filter time in ticks of its two-bit code. -/
def filterOf (n : Nat) : Nat :=
  match n with
  | 0 => 0
  | 1 => 10
  | 2 => 100
  | _ => 1000

/-- Two-bit field `i` of a byte, field 0 in bits 7–6. -/
def twoBits (b : Byte) (i : Nat) : Nat := (b.extractLsb' (6 - 2 * i) 2).toNat

/-- R184: the monitor enables of channel `i`. -/
def monitorsOf (w : BitVec 16) (i : Nat) : Lines :=
  ⟨w.getLsbD (15 - 3 * i), w.getLsbD (14 - 3 * i), w.getLsbD (13 - 3 * i)⟩

/-- R184: the channel map of group `g`: four bits, group 0 in bits 7–4 of byte 8. -/
def mapOf (bytes : List Byte) (g : Nat) : ChanSet :=
  (imageByte bytes (8 + g / 2)).extractLsb' (if g % 2 = 0 then 4 else 0) 4

/-- R184: map and cadence period of group `g`, as they stand. -/
def groupConfigOf (bytes : List Byte) (g : Nat) : GroupConfig :=
  ⟨mapOf bytes g, (imageWord bytes (12 + 2 * g)).toNat⟩

/-- R184: a strobe record. -/
def strobeOf (bytes : List Byte) (at_ : Nat) : Option StrobeConfig :=
  let g := imageByte bytes at_
  let w := (imageWord bytes (at_ + 1)).toNat
  if w < 1 ∨ 1000 < w then none
  else if g = 0xFF then some ⟨none, w⟩
  else (groupOf g).map (fun g => ⟨some g, w⟩)

/-- R168, R184: the channels of which a signal set names a signal, by the bits of the word. -/
def signalChannels (signals : BitVec 16) : ChanSet :=
  BitVec.ofBool (decide (signals.extractLsb' 4 3 ≠ 0)) ++ BitVec.ofBool (decide (signals.extractLsb' 7 3 ≠ 0)) ++
    BitVec.ofBool (decide (signals.extractLsb' 10 3 ≠ 0)) ++ BitVec.ofBool (decide (signals.extractLsb' 13 3 ≠ 0))

/-- R184: the direction of a code. -/
def directionOf (b : Byte) : Option Direction :=
  match b.toNat with
  | 0 => some .up
  | 1 => some .down
  | 2 => some .either
  | _ => none

/-- R184: the mode of a code. -/
def termModeOf (b : Byte) : Option TermMode :=
  match b.toNat with
  | 0 => some .single
  | 1 => some .continuous
  | _ => none

/-- R168, R184: the condition of a term record at `at_`, checked against the active channels; none out of range. -/
def conditionOf (bytes : List Byte) (at_ : Nat) (active : ChanSet) : Option Condition :=
  match (imageByte bytes at_).toNat with
  | 0 => some .none
  | 1 =>
    let signals := imageWord bytes (at_ + 6)
    if signals = 0 then none
    else if signalChannels signals &&& ~~~active ≠ 0 then none
    else some (.pattern signals (imageWord bytes (at_ + 8)))
  | 2 =>
    let c := imageByte bytes (at_ + 10)
    if h : c.toNat < 4 then
      if active.getLsbD c.toNat then
        (directionOf (imageByte bytes (at_ + 11))).map (fun d => .cross ⟨c.toNat, h⟩ d
          (word4 (imageByte bytes (at_ + 12)) (imageByte bytes (at_ + 13)) (imageByte bytes (at_ + 14))
            (imageByte bytes (at_ + 15))))
      else none
    else none
  | _ => none

/-- A term of kind NONE: no other field of its record is used (R168). -/
def TermConfig.unused : TermConfig := ⟨.none, 0, .single, false, 0⟩

/-- R168, R184: the term record at `at_`; none out of range. -/
def termOf (bytes : List Byte) (at_ : Nat) (active : ChanSet) (declared : GroupSet) : Option TermConfig := do
  let condition ← conditionOf bytes at_ active
  if condition = .none then some TermConfig.unused
  else
    let group ← groupOf (imageByte bytes (at_ + 1))
    let mode ← termModeOf (imageByte bytes (at_ + 2))
    let armed ← flagOf (imageByte bytes (at_ + 3))
    if declared.getLsbD group.val then some ⟨condition, group, mode, armed, (imageWord bytes (at_ + 4)).toNat⟩ else none

/-- R168: the checks of a declared group: a non-empty map of active channels, a period of at most 60,000 ms that is 0
or longer than the cadence lead. -/
def groupOk (cfg : GroupConfig) (active : ChanSet) (lead : Nat) : Bool :=
  decide (cfg.map ≠ 0 ∧ cfg.map &&& ~~~active = 0 ∧ cfg.period ≤ 60000 ∧ (cfg.period = 0 ∨ lead < cfg.period))

/-- R168, R184: the fields of an image whose CRC has matched; none where a range check fails. -/
def Image.ofBytes (bytes : List Byte) : Option Image := do
  let samplePeriod ← samplePeriodOf (imageByte bytes 0)
  let mode (i : Nat) := channelModeOf (twoBits (imageByte bytes 1) i)
  let m0 ← mode 0
  let m1 ← mode 1
  let m2 ← mode 2
  let m3 ← mode 3
  let on (m : ChannelMode) : BitVec 1 := BitVec.ofBool (decide (m ≠ .off))
  let active : ChanSet := on m3 ++ on m2 ++ on m1 ++ on m0
  let monitors := monitorsOf (imageWord bytes 2)
  let quietTime := (imageWord bytes 4).toNat
  let filter (i : Nat) := filterOf (twoBits (imageByte bytes 6) i)
  let declared := imageByte bytes 7
  let group := groupConfigOf bytes
  let lead := (imageByte bytes 28).toNat
  let window := (imageByte bytes 29).toNat
  let delay := (imageByte bytes 30).toNat
  let term (i : Nat) := termOf bytes (31 + 16 * i) active declared
  if 60000 < quietTime ∨ lead < 1 ∨ 50 < lead ∨ window < 1 ∨ 50 < window ∨ 63 < delay then none
  else if ∃ g ∈ eight, declared.getLsbD g.val ∧ ¬ groupOk (group g.val) active lead then none
  else
    let t0 ← term 0
    let t1 ← term 1
    let t2 ← term 2
    let t3 ← term 3
    let s0 ← strobeOf bytes 95
    let s1 ← strobeOf bytes 98
    some
      { samplePeriod := samplePeriod
        modes := ⟨m0, m1, m2, m3⟩
        monitors := ⟨monitors 0, monitors 1, monitors 2, monitors 3⟩
        quietTime := quietTime
        filters := ⟨filter 0, filter 1, filter 2, filter 3⟩
        declared := declared
        groups := #v[group 0, group 1, group 2, group 3, group 4, group 5, group 6, group 7]
        cadenceLead := lead
        collectWindow := window
        busDelay := delay
        terms := ⟨t0, t1, t2, t3⟩
        strobe0 := s0
        strobe1 := s1 }

/-- R167: the check of a completed image: its CRC over bytes 0 to 100, then its ranges. -/
def Image.check (bytes : List Byte) : Except HaltReason Image :=
  if bytes2 (crc16 (bytes.take 101)) ≠ (bytes.drop 101).take 2 then .error .check
  else
    match Image.ofBytes bytes with
    | some image => .ok image
    | none => .error .range

end Sys2Proof.Machine
end

