-- ==== Sys2Proof/Machine/History.lean ====
section
/-!
DEFINITION. The history unit: sample instants and rings (R50 to R54), resolution of a local time (R55, R56), the checks
of a PRESET (R57 to R63), and the walk that applies or holds the due presets (R64 to R66).
-/

namespace Sys2Proof.Machine

/-! ### Samples -/

/-- R52: a sample joins at the newest end, and the oldest is dropped from a full ring. -/
def pushSample (ring : List Sample) (x : Sample) : List Sample :=
  (if Config.ringSize ≤ ring.length then ring.drop (ring.length + 1 - Config.ringSize) else ring) ++ [x]

/-- R51: the sample of a channel at an instant. -/
def Channel.sample (c : Channel) (t : Time) : Sample := ⟨t, c.count, c.epoch, c.quality⟩

/-- R53, R54: the sample of every active channel appended at the instant `t`, and the next instant one period on. -/
def State.appendSamples (s : State) (t : Time) : State :=
  { s with hist := { s.hist with
      rings := Four.build fun i =>
        if s.active i then pushSample (s.hist.rings.get i) ((s.chans.get i).sample t) else s.hist.rings.get i
      newest := some t
      nextInstant := some (addTicks t s.image.samplePeriod) } }

/-- R55: the answer to a resolution of one channel and one local time. -/
inductive Resolution where
  | notYet
  | stale
  | pair (before after : Sample)
  deriving DecidableEq, Repr

/-- R55: the bracketing pair in a ring, oldest first: the newest sample at or before `l`, and the one that follows it. -/
def bracket (l : Time) : List Sample → Resolution
  | a :: b :: rest => if later b.time l then .pair a b else bracket l (b :: rest)
  | _ => .notYet

/-- R55: the three results, tested in order. -/
def resolve (ring : List Sample) (l : Time) : Resolution :=
  if ring.any (fun x => later x.time l) then
    match ring with
    | [] => .notYet
    | x :: _ => if later x.time l then .stale else bracket l ring
  else .notYet

/-- R16: the worse of two qualities. -/
def Quality.worse (p q : Quality) : Quality :=
  match p, q with
  | .fault, _ | _, .fault => .fault
  | .unconfirmed, _ | _, .unconfirmed => .unconfirmed
  | .good, .good => .good

/-- R16, R17, R18: a history result as a channel entry's reading; *not yet* does not occur at resolution and gives no
entry. -/
def Resolution.reading (x : Resolution) (l : Time) : Option Reading :=
  match x with
  | .notYet => none
  | .stale => some .stale
  | .pair b a =>
    some (.sampled (b.quality.worse a.quality) ⟨b.count, (b.time - l).setWidth 16, b.epoch⟩
      (if a.epoch = b.epoch then some ⟨a.count, (a.time - l).setWidth 16⟩ else none))

/-- R16, R19: the channel entries of a REPORT: one for each channel of the map, ascending. -/
def State.readings (s : State) (map : ChanSet) (l : Time) : List ChannelEntry :=
  four.filterMap fun i =>
    if map.getLsbD i.val then ((resolve (s.hist.rings.get i) l).reading l).map (fun r => ⟨i, r⟩) else none

/-- R50, R53: the first instant the series is sampled at, from the change to LISTENING at `now`: `now` itself where it
is a sample instant that has not already passed, else the next one. The series counts from the release on, through a wrap
of local time, so that its place is read from `phase`. -/
def firstInstant (now : Time) (phase period : Nat) (passed : Option Time) : Time :=
  let past := phase % period
  if past = 0 ∧ passed ≠ some now then now else addTicks now (period - past)

/-! ### Pending presets -/

/-- R57: two presets overlap when their channel sets share a channel. -/
def overlaps (a b : ChanSet) : Bool := decide (a &&& b ≠ 0)

/-- R63: a preset placed in time order, before the first preset whose time is later, and so after every one whose time is
earlier or equal. Two points are the model's choice (assumption 33). A preset whose time lies exactly 2^47 ticks from the
new one's is by R72 neither earlier, equal nor later, and is passed as an earlier one is. Among presets more than 2^47 ticks
apart the comparison can be cyclic, so that no place is both after every earlier one and before every later one; the place
before the first later one is taken. -/
def insertPreset (p : Preset) : List Preset → List Preset
  | [] => [p]
  | q :: rest => if later q.time p.time then p :: q :: rest else q :: insertPreset p rest

/-- R61: the list holds an overlapping preset within one sample period of the time. -/
def crowded (presets : List Preset) (chans : ChanSet) (t : Time) (period : Nat) : Bool :=
  presets.any fun q => overlaps q.chans chans && decide ((timeDiff q.time t).natAbs ≤ period)

/-- R60, R61: the reason a PRESET that is no duplicate is refused, if it is. -/
def State.presetRefusal (s : State) (f : PresetFrame) : Option RefusalReason :=
  if !later f.time s.netTime then some .late
  else if (Config.horizon : Int) < timeDiff f.time s.netTime then some .far
  else if Config.presetSize ≤ s.hist.presets.length then some .full
  else if crowded s.hist.presets (s.channelMap f.group) f.time s.image.samplePeriod then some .crowded
  else none

/-- R59: the list holds a preset of the same group and time. -/
def State.presetDuplicate (s : State) (f : PresetFrame) : Bool :=
  s.hist.presets.any fun q => decide (q.group = f.group ∧ q.time = f.time)

/-- R58 to R63: a PRESET from `sender`. -/
def State.presetArrival (s : State) (sender : Ident) (f : PresetFrame) : State :=
  if !(s.joined && s.declares f.group) then s
  else if s.presetDuplicate f then s
  else
    match s.presetRefusal f with
    | some reason => { s with req := { s.req with refusal := ⟨reason, sender, f.group⟩ } }
    | none => { s with hist := { s.hist with
        presets := insertPreset ⟨f.group, f.time, f.value, s.channelMap f.group⟩ s.hist.presets } }

/-! ### Due presets -/

/-- R64, R66: a preset is applied: its channels take the value and join the touched set. -/
def State.applyPreset (s : State) (p : Preset) : State :=
  let s := s.presetChannels p.chans p.value
  { s with hist := { s.hist with touched := s.hist.touched ||| p.chans } }

/-- R64: a preset is held: it overlaps the touched set, or an earlier preset that is still pending. -/
def State.holds (s : State) (kept : List Preset) (p : Preset) : Bool :=
  overlaps p.chans s.hist.touched || kept.any fun q => overlaps p.chans q.chans

/-- R64: the walk over the list from its head; `kept` are the presets, already passed, that stay. -/
def State.walk (s : State) (kept : List Preset) : List Preset → State
  | [] => { s with hist := { s.hist with presets := kept } }
  | p :: rest =>
    if s.reachedNet p.time && !s.holds kept p then (s.applyPreset p).walk kept rest
    else s.walk (kept ++ [p]) rest

/-- R64: every due preset is applied or held. -/
def State.walkPresets (s : State) : State := s.walk [] s.hist.presets

/-- R65: a sample instant empties the touched set, then the due presets are walked. -/
def State.clearAndWalk (s : State) : State :=
  ({ s with hist := { s.hist with touched := 0 } } : State).walkPresets

/-- R64: some due preset is not held at its turn. -/
def State.presetDue (s : State) : Bool :=
  s.running && decide (s.walkPresets.hist.presets ≠ s.hist.presets)

/-- R69: the list and the touched set are cleared, and nothing is applied. -/
def State.clearPresets (s : State) : State := { s with hist := { s.hist with presets := [], touched := 0 } }

/-- R64: the due presets are walked where local time has reached one. -/
def State.takePresetDue (s : State) : State := if s.running then s.walkPresets else s

/-- PRESET_DUE (R64). -/
def execPresetDue (dt : Lapse) (s : State) : Host.Outcome State Fault Refusal := take dt State.takePresetDue s

end Sys2Proof.Machine
end

