-- ==== Sys2Proof/Machine/Ops.lean ====
section
/-!
DEFINITION. The transmit queue (R142 to R145): the order of the queue, its victim, the offer of a frame with replacement,
eviction and refusal, withdrawal, the freeing of capture entries, and what a frame that is lost does to its owner (R20,
R38, R47, R162, R175). Every block offers its frames through `State.offer`.
-/

namespace Sys2Proof.Machine

/-! ### The queue -/

/-- R135: the class of a frame, fixed by its kind. -/
def Content.cls : Content → Nat
  | .call _ | .close _ | .leave _ => 0
  | .report _ => 1
  | .beacon _ => 2
  | .reply _ _ => 3

/-- R142: `f` stands before `g`: lower class, or the same class and older. -/
def QFrame.before (f g : QFrame) : Bool :=
  decide (f.content.cls < g.content.cls ∨ (f.content.cls = g.content.cls ∧ f.age < g.age))

/-- R142: a frame put at the place its class and age give it. -/
def insertFrame (f : QFrame) : List QFrame → List QFrame
  | [] => [f]
  | g :: rest => if f.before g then f :: g :: rest else g :: insertFrame f rest

/-- R142: the frames of the queue, the one in flight included. -/
def LinkUnit.count (l : LinkUnit) : Nat := l.queue.length + (if l.flight.isSome then 1 else 0)

/-- R143: the queued frame, not in flight, that a new frame replaces: a BEACON a BEACON, a REPLY a REPLY to the same
requester. -/
def LinkUnit.predecessor (l : LinkUnit) (c : Content) : Option QFrame :=
  match c with
  | .beacon _ => l.queue.find? fun f => match f.content with | .beacon _ => true | _ => false
  | .reply requester _ => l.queue.find? fun f =>
      match f.content with | .reply other _ => decide (other = requester) | _ => false
  | .call _ | .report _ | .close _ | .leave _ => none

/-- R143: of two frames, the one an eviction takes first: the larger class, and within a class the younger. -/
def QFrame.worse (f g : QFrame) : QFrame := if f.before g then g else f

/-- R143: the youngest frame, not in flight, of the largest class in the queue. -/
def LinkUnit.worst (l : LinkUnit) : Option QFrame :=
  match l.queue with
  | [] => none
  | f :: rest => some (rest.foldl QFrame.worse f)

/-- R143: the frame evicted for a new frame of class `cls`: the youngest of the largest class greater than it. -/
def LinkUnit.victim (l : LinkUnit) (cls : Nat) : Option QFrame :=
  match l.worst with
  | some f => if cls < f.content.cls then some f else none
  | none => none

/-- The queue without the frame of an age; ages are unique in the queue. -/
def LinkUnit.remove (l : LinkUnit) (age : Nat) : LinkUnit := { l with queue := l.queue.filter (fun f => f.age != age) }

/-- R143: a frame admitted with the next age. -/
def LinkUnit.enqueue (l : LinkUnit) (owner : Owner) (c : Content) : LinkUnit :=
  { l with queue := insertFrame ⟨owner, c, l.nextAge, 0, false⟩ l.queue, nextAge := l.nextAge + 1 }

/-- R143: a frame put in the place and age of the one it replaces. -/
def LinkUnit.replace (l : LinkUnit) (old : QFrame) (owner : Owner) (c : Content) : LinkUnit :=
  { l with queue := l.queue.map fun f => if f.age = old.age then ⟨owner, c, old.age, 0, false⟩ else f }

/-- R144: the queue without the frames, not in flight, of an owner. -/
def LinkUnit.withdraw (l : LinkUnit) (owner : Owner) : LinkUnit :=
  { l with queue := l.queue.filter (fun f => decide (f.owner ≠ owner)) }

/-- The content is a CALL. -/
def Content.isCall : Content → Bool
  | .call _ => true
  | .report _ | .close _ | .leave _ | .beacon _ | .reply _ _ => false

/-- The owner's CALL stands in the queue and is not in flight. -/
def LinkUnit.callQueued (l : LinkUnit) (owner : Owner) : Bool :=
  l.queue.any fun f => decide (f.owner = owner) && f.content.isCall

/-- R49, R149: the owner's CALL is in flight with its bits going out. -/
def LinkUnit.callOnWire (l : LinkUnit) (owner : Owner) : Bool :=
  match l.flight with
  | some fl => fl.onWire && decide (fl.frame.owner = owner) && fl.frame.content.isCall
  | none => false

/-- R144: the owner's CALL, not in flight, leaves the queue. -/
def LinkUnit.withdrawCall (l : LinkUnit) (owner : Owner) : LinkUnit :=
  { l with queue := l.queue.filter (fun f => !(decide (f.owner = owner) && f.content.isCall)) }

/-- An own frame's bits are going out. -/
def LinkUnit.sending (l : LinkUnit) : Bool :=
  match l.flight with
  | some fl => fl.onWire
  | none => false

/-! ### Entries, terms and replies by name -/

/-- The entry of a uid. -/
def State.entry? (s : State) (uid : Nat) : Option Entry := s.cap.table.find? fun e => e.uid == uid

/-- The entry of a tag (R1: matched by equality only). -/
def State.tagged? (s : State) (tag : Tag) : Option Entry := s.cap.table.find? fun e => decide (e.tag = tag)

/-- The table with the entry of a uid changed by `f`. -/
def State.onEntry (s : State) (uid : Nat) (f : Entry → Entry) : State :=
  { s with cap := { s.cap with table := s.cap.table.map fun e => if e.uid = uid then f e else e } }

/-- R4, R6: an entry is freed: it leaves the table, and its frames not in flight are withdrawn. Their outcome finds
nothing. -/
def State.freeEntry (s : State) (uid : Nat) : State :=
  { s with
    cap := { s.cap with table := s.cap.table.filter fun e => e.uid != uid }
    link := s.link.withdraw (.entry uid) }

/-- The state with term `i` changed by `f`. -/
def State.onTerm (s : State) (i : TermNo) (f : Term → Term) : State :=
  { s with trig := { s.trig with terms := s.trig.terms.set i (f (s.trig.terms.get i)) } }

/-- R127: a fire of the term was lost. -/
def State.setFireLost (s : State) (i : TermNo) : State := s.onTerm i fun t => { t with fireLost := true }

/-- R10: a tag leaves the declined list. -/
def State.undecline (s : State) (tag : Tag) : State :=
  { s with cap := { s.cap with declined := s.cap.declined.filter fun t => decide (t ≠ tag) } }

/-- R151: an entry leaves the reply list. -/
def State.dropReply (s : State) (id : Nat) : State :=
  { s with req := { s.req with replies := s.req.replies.filter fun r => r.id != id } }

/-! ### A frame is lost -/

/-- The outcomes of R145 other than *sent*. -/
inductive Loss where
  | failed | evicted | refused | withdrawn
  deriving DecidableEq, Repr

/-- R176: the station listens afresh: the listen timer runs for 150 ms from now. -/
def State.listenAgain (s : State) : State :=
  { s with ctrl := { s.ctrl with
      lifecycle := .listening
      listenTimer := some (addTicks s.time.localTime Config.listenPeriod) } }

/-- R175: the LEAVE has its outcome: LEAVING goes to WITHDRAWN, and straight on to LISTENING where the monitor reads
NORMAL. In any other state the outcome changes nothing. -/
def State.leaveEnded (s : State) : State :=
  match s.ctrl.lifecycle, s.ctrl.monitor with
  | .leaving, .normal => s.listenAgain
  | .leaving, .warning => { s with ctrl := { s.ctrl with lifecycle := .withdrawn } }
  | _, _ => s

/-- R38: a CALL failed: its entry is freed, and a TRIGGERED entry's fire is lost. -/
def State.callLost (s : State) (uid : Nat) : State :=
  match s.entry? uid with
  | none => s
  | some e =>
    match e.origin with
    | some { term := some t, .. } => (s.freeEntry uid).setFireLost t
    | _ => s.freeEntry uid

/-- R20: a REPORT was lost: a RESOLVED entry is ABANDONED. -/
def Entry.abandon (e : Entry) : Entry :=
  if e.member = .resolved then { e with member := .abandoned } else e

/-- R6, R10, R20, R38, R39, R47, R77, R162, R175: the outcome of a frame that is lost, applied to its owner. -/
def State.lose (s : State) (f : QFrame) (o : Loss) : State :=
  match f.owner, f.content with
  | .entry uid, .call _ => if o = .withdrawn then s else s.callLost uid
  | .entry uid, .report _ => if o = .withdrawn then s else s.onEntry uid Entry.abandon
  | .entry uid, .close _ => if o = .withdrawn then s else s.freeEntry uid
  | .entry _, .leave _ | .entry _, .beacon _ | .entry _, .reply _ _ => s
  | .declined tag, _ => s.undecline tag
  | .time, _ => s
  | .reply id, _ => s.dropReply id
  | .controller, _ => if o = .withdrawn then s else s.leaveEnded

/-! ### Offer and withdrawal -/

/-- The state with another link unit. -/
def State.withLink (s : State) (l : LinkUnit) : State := { s with link := l }

/-- R143: an owner offers a frame. -/
def State.offer (s : State) (owner : Owner) (c : Content) : State :=
  match s.link.predecessor c with
  | some old => (s.withLink (s.link.replace old owner c)).lose old .withdrawn
  | none =>
    if s.link.count < Config.queueSize then s.withLink (s.link.enqueue owner c)
    else
      match s.link.victim c.cls with
      | some v =>
        let s := (s.withLink (s.link.remove v.age)).lose v .evicted
        s.withLink (s.link.enqueue owner c)
      | none => s.lose ⟨owner, c, s.link.nextAge, 0, false⟩ .refused

/-- R13, R144: the declined REPORT of a tag is withdrawn if it is not in flight; its outcome takes the tag off the
declined list. -/
def State.withdrawDeclined (s : State) (tag : Tag) : State :=
  if s.link.queue.any (fun f => decide (f.owner = .declined tag)) then
    (s.withLink (s.link.withdraw (.declined tag))).undecline tag
  else s

/-- R149: every frame not in flight is withdrawn; a frame on the wire finishes; a frame awaiting its retry is discarded
with the outcome *failed*, which leaves the discard count as it was. -/
def State.flushLink (s : State) : State :=
  let queued := s.link.queue
  let flight := s.link.flight
  let s := s.withLink { s.link with
    queue := []
    flight := flight.bind fun fl => if fl.onWire then some { fl with finishing := true } else none }
  let s := queued.foldl (fun s f => s.lose f .withdrawn) s
  match flight with
  | some fl => if fl.onWire then s else s.lose fl.frame .failed
  | none => s

end Sys2Proof.Machine
end

