-- ==== Sys2Proof/Machine/Capture.lean ====
section
/-!
DEFINITION. The capture unit: entries and the capture table (R1 to R6), CALL, REPORT and CLOSE arrivals (R7 to R14, R21,
R22, R40, R46, R48), resolution (R15 to R19), the sent outcomes (R20, R37, R41, R47), fires (R30, R31), cadence (R32 to
R35), deadlines, retention and strobes (R23 to R25, R43, R130), and what a change of the correction does to them (R74).
-/

namespace Sys2Proof.Machine

/-! ### Entries -/

/-- R1: the CALL's tag and kind agree, and a cadence tag names the CALL's group. -/
def CallFrame.agrees (f : CallFrame) : Bool :=
  match f.kind, f.tag with
  | .triggered, .station _ _ | .scheduled, .station _ _ => true
  | .cadence, .cadence g _ => decide (g = f.group)
  | .triggered, .cadence _ _ | .scheduled, .cadence _ _ | .cadence, .station _ _ => false

/-- R5: member-only, and REPORTED or ABANDONED. -/
def Entry.freeable (e : Entry) : Bool :=
  e.origin.isNone && decide (e.member = .reported ∨ e.member = .abandoned)

/-- R5: room for one entry: the oldest freeable entry of a full table is freed; none where the table is full and
nothing is freeable. -/
def State.makeRoom (s : State) : Option State :=
  if s.cap.table.length < Config.tableSize then some s
  else (s.cap.table.find? Entry.freeable).map fun e => s.freeEntry e.uid

/-- R4: the entries with an origin part. -/
def State.originCount (s : State) : Nat := (s.cap.table.filter fun e => e.origin.isSome).length

/-- R2: the retention end of an entry created now. -/
def State.retentionFor (s : State) (captureTime : Time) : Time :=
  addTicks (laterOf s.netTime captureTime) Config.retention

/-- R14: the strobe flag of an entry created now. -/
def State.strobeFlagFor (s : State) (kind : CallKind) (captureTime : Time) : StrobeFlag :=
  match kind with
  | .triggered => .missed
  | .cadence | .scheduled => if later (s.toLocal captureTime) s.time.localTime then .pending else .missed

/-- R2, R14, R31, R35: an entry as it is created now, WAITING. -/
def State.newEntry (s : State) (tag : Tag) (group : Group) (captureTime : Time) (kind : CallKind)
    (origin : Option Origin) : Entry where
  uid := s.cap.nextUid
  tag := tag
  group := group
  time := captureTime
  kind := kind
  retentionEnd := s.retentionFor captureTime
  member := .waiting
  strobe := s.strobeFlagFor kind captureTime
  origin := origin

/-- R4: an entry joins at the end of the table. -/
def State.addEntry (s : State) (e : Entry) : State :=
  { s with cap := { s.cap with table := s.cap.table ++ [e], nextUid := s.cap.nextUid + 1 } }

/-- R28: an origin part as it is created. -/
def Origin.fresh (term : Option TermNo) : Origin := ⟨.calling, 0, 0, 0, none, false, term⟩

/-- The entry with its origin part changed by `f`. -/
def Entry.onOrigin (e : Entry) (f : Origin → Origin) : Entry := { e with origin := e.origin.map f }

/-! ### Resolution -/

/-- R19: the REPORT composed at the resolution of an entry. -/
def State.reportOf (s : State) (e : Entry) : ReportFrame :=
  ⟨e.tag, s.time.state, .none, s.readings (s.channelMap e.group) (s.toLocal e.time)⟩

/-- R15: a WAITING entry is resolved: it becomes RESOLVED, and its REPORT is offered. -/
def State.resolveEntry (s : State) (uid : Nat) : State :=
  match s.entry? uid with
  | none => s
  | some e =>
    if e.member = .waiting then
      (s.onEntry uid fun e => { e with member := .resolved }).offer (.entry uid) (.report (s.reportOf e))
    else s

/-- R14: the newest sample is later than the entry's local instant, so it is resolved at once. -/
def State.resolveAtOnce (s : State) (e : Entry) : State :=
  match s.hist.newest with
  | some t => if later t (s.toLocal e.time) then s.resolveEntry e.uid else s
  | none => s

/-- R15: the WAITING entries whose local instant is earlier than the instant `t`, oldest first. -/
def State.resolvable (s : State) (t : Time) : List Nat :=
  (s.cap.table.filter fun e => decide (e.member = .waiting) && later t (s.toLocal e.time)).map Entry.uid

/-- R15: a sample instant resolves its entries in table order. -/
def State.resolveAll (s : State) (t : Time) : State := (s.resolvable t).foldl State.resolveEntry s

/-! ### Closing -/

/-- R42, R43: the origin part goes to CLOSING, and a CLOSE is queued with its content to be composed at its start. -/
def State.beginClosing (s : State) (uid : Nat) : State :=
  (s.onEntry uid fun e => e.onOrigin fun o => { o with state := .closing }).offer (.entry uid) (.close none)

/-- R42: the responders and decliners contain every expected identity. -/
def Origin.covered (o : Origin) : Bool := decide (o.expected &&& ~~~(o.responders ||| o.decliners) = 0)

/-- R42: the covering test of an entry in COLLECTING. -/
def State.testCover (s : State) (uid : Nat) : State :=
  match s.entry? uid with
  | some { origin := some o, .. } => if o.state = .collecting ∧ o.covered then s.beginClosing uid else s
  | _ => s

/-- R40, R41: the origin part still takes answers. -/
def Origin.open_ (o : Origin) : Bool := decide (o.state = .collecting ∨ o.state = .closing) && !o.begun

/-- R40: an identity is in one of the two sets. -/
def Origin.counted (o : Origin) (i : Ident) : Bool := hasIdent (o.responders ||| o.decliners) i

/-- R40, R41: an answer is added to its set, unless its sender has been counted already, and cover is tested. -/
def State.countAnswer (s : State) (uid : Nat) (i : Ident) (declined : Bool) : State :=
  match s.entry? uid with
  | some { origin := some o, .. } =>
    if o.open_ && !o.counted i then
      (s.onEntry uid fun e => e.onOrigin fun o =>
        if declined then { o with decliners := o.decliners ||| identBit i }
        else { o with responders := o.responders ||| identBit i }).testCover uid
    else s
  | _ => s

/-! ### Sent frames -/

/-- R37: a CALL is sent: the origin part goes to COLLECTING, and its deadline is set. -/
def State.callSent (s : State) (uid : Nat) : State :=
  s.onEntry uid fun e => e.onOrigin fun o =>
    if o.state = .calling then
      { o with
        state := .collecting
        deadline := some (addTicks (laterOf s.netTime e.time) (s.image.collectWindow * Config.ticksPerMs)) }
    else o

/-- R20: a RESOLVED entry is REPORTED. -/
def Entry.reportSent (e : Entry) : Entry :=
  if e.member = .resolved then { e with member := .reported } else e

/-- R20, R41: an own REPORT is sent. -/
def State.reportSent (s : State) (uid : Nat) : State :=
  (s.onEntry uid Entry.reportSent).countAnswer uid s.ctrl.identity false

/-- R145: the outcome *sent* of a frame, applied to its owner. -/
def State.sentOutcome (s : State) (f : QFrame) : State :=
  match f.owner, f.content with
  | .entry uid, .call _ => s.callSent uid
  | .entry uid, .report _ => s.reportSent uid
  | .entry uid, .close _ => s.freeEntry uid
  | .entry _, .leave _ | .entry _, .beacon _ | .entry _, .reply _ _ => s
  | .declined tag, _ => s.undecline tag
  | .time, _ => s
  | .reply id, _ => s.dropReply id
  | .controller, _ => s.leaveEnded

/-! ### CALL, REPORT and CLOSE arrivals -/

/-- R13: a declined REPORT is queued, and its tag joins the declined list. -/
def State.decline (s : State) (tag : Tag) (reason : DeclineReason) : State :=
  ({ s with cap := { s.cap with declined := s.cap.declined ++ [tag] } } : State).offer (.declined tag)
    (.report ⟨tag, s.time.state, reason, []⟩)

/-- R23: the member-only entry's retention end has come. -/
def State.retentionDue (s : State) (e : Entry) : Bool := e.origin.isNone && s.reachedNet e.retentionEnd

/-- R9: another station's CALL withdraws the own CALL and drops the origin part; an entry whose retention end has passed
is freed at once, one exactly 2^47 ticks from local time too (assumption 33). -/
def State.giveUpCall (s : State) (e : Entry) : State :=
  let s := (s.withLink (s.link.withdrawCall (.entry e.uid))).onEntry e.uid fun e => { e with origin := none }
  if s.reachedNet e.retentionEnd then s.freeEntry e.uid else s

/-- R3, R36: the origin part is in CALLING with its CALL queued and not in flight. -/
def State.callWaits (s : State) (e : Entry) : Bool :=
  match e.origin with
  | some o => decide (o.state = .calling) && s.link.callQueued (.entry e.uid)
  | none => false

/-- R7 to R14: a CALL from another station. -/
def State.callArrival (s : State) (f : CallFrame) : State :=
  if !(s.joined && f.agrees && s.declares f.group) then s
  else
    match s.tagged? f.tag with
    | some e => if s.callWaits e then s.giveUpCall e else s
    | none =>
      if s.cap.declined.contains f.tag then s
      else if (Config.horizon : Int) < timeDiff f.time s.netTime then s.decline f.tag .far
      else
        match s.makeRoom with
        | none => s.decline f.tag .tableFull
        | some s =>
          let e := s.newEntry f.tag f.group f.time f.kind none
          (s.addEntry e).resolveAtOnce e

/-- R21, R40, R46: a REPORT from another station. -/
def State.reportArrival (s : State) (sender : Ident) (f : ReportFrame) : State :=
  if !s.joined then s
  else
    match s.tagged? f.tag with
    | some e => s.countAnswer e.uid sender (decide (f.reason ≠ .none))
    | none => s

/-- R13, R22, R48: a CLOSE from another station. -/
def State.closeArrival (s : State) (sender : Ident) (f : CloseFrame) : State :=
  if !s.joined then s
  else
    match s.tagged? f.tag with
    | none => if s.cap.declined.contains f.tag then s.withdrawDeclined f.tag else s
    | some e =>
      match e.origin with
      | none => s.freeEntry e.uid
      | some o =>
        match o.state with
        | .calling => if s.link.callQueued (.entry e.uid) then s.freeEntry e.uid else s
        | .collecting | .closing => if sender < s.ctrl.identity then s.freeEntry e.uid else s

/-! ### Origination -/

/-- The tag is already held, or it is on the declined list (R30, R35). -/
def State.tagTaken (s : State) (tag : Tag) : Bool := (s.tagged? tag).isSome || s.cap.declined.contains tag

/-- R29: the sequence counter advances, wrapping from 65,535 to 0. -/
def State.nextSequence (s : State) : State := { s with cap := { s.cap with sequence := s.cap.sequence + 1 } }

/-- R31: a TRIGGERED capture is originated for a fire of term `i` with the given stamp. -/
def State.originateFire (s : State) (i : TermNo) (stamp : Time) : State :=
  let group := (s.image.terms.get i).group
  let tag := Tag.station s.ctrl.identity s.cap.sequence
  let e := s.newEntry tag group (stamp + s.time.correction) .triggered (some (Origin.fresh (some i)))
  let lost := (s.trig.terms.get i).fireLost
  let s := (s.addEntry e).onTerm i fun t => { t with fireLost := false }
  let s := s.offer (.entry e.uid) (.call ⟨tag, group, e.time, .triggered, lost⟩)
  s.nextSequence.resolveAtOnce e

/-- R30: the capture unit takes a fire request. -/
def State.takeFire (s : State) (stamp : Time) (i : TermNo) : State :=
  if !s.joined then s
  else if Config.originPlaces ≤ s.originCount then s.setFireLost i
  else
    match s.makeRoom with
    | none => s.setFireLost i
    | some s =>
      if s.tagTaken (.station s.ctrl.identity s.cap.sequence) then s.nextSequence.setFireLost i
      else s.originateFire i stamp

/-- R125: several fires reach the capture unit one after the other: those named in `first` in its order, then the rest
in term order. -/
def fireOrder (first fires : List TermNo) : List TermNo :=
  (first.eraseDups.filter fun t => fires.contains t) ++ fires.filter fun t => !first.contains t

/-- R125: every fire's request is taken. -/
def State.takeFires (s : State) (stamp : Time) (fires : List TermNo) : State :=
  fires.foldl (fun s i => s.takeFire stamp i) s

/-! ### Cadence -/

/-- R32: the cadence period of a group in ticks. -/
def State.cadenceTicks (s : State) (g : Group) : Nat := s.image.groups[g].period * Config.ticksPerMs

/-- R32: the cadence lead in ticks. -/
def State.leadTicks (s : State) : Nat := s.image.cadenceLead * Config.ticksPerMs

/-- R32: an index whose instant lies below 2^48, else index 0. -/
def wrapIndex (period k : Nat) : Nat := if k * period < 2 ^ 48 then k else 0

/-- R32: the least index whose instant is later than the current network time plus the lead. -/
def State.firstIndex (s : State) (g : Group) : Nat :=
  let p := s.cadenceTicks g
  wrapIndex p ((addTicks s.netTime s.leadTicks).toNat / p + 1)

/-- R32: the cadence instant of an index, a network time. -/
def State.cadenceInstant (s : State) (x : Schedule) : Time := BitVec.ofNat 48 (x.index * s.cadenceTicks x.group)

/-- R32: the cadence moment of a schedule, a network time. -/
def State.cadenceMomentOf (s : State) (x : Schedule) : Time := s.cadenceInstant x - BitVec.ofNat 48 s.leadTicks

/-- R32: the schedules set at the change to JOINED: one for each declared group with a nonzero period. -/
def State.setSchedules (s : State) : State :=
  { s with cap := { s.cap with
      schedules := (eight.filter fun g => s.declares g && decide (s.cadenceTicks g ≠ 0)).map fun g =>
        ⟨g, s.firstIndex g⟩ } }

/-- The schedule of a group. -/
def State.schedule? (s : State) (g : Group) : Option Schedule := s.cap.schedules.find? fun x => decide (x.group = g)

/-- R34: the station's identity is lower than that of every ADMITTED peer that declares the group. -/
def State.elected (s : State) (g : Group) : Bool :=
  s.time.peers.all fun p =>
    !(decide (p.state = .admitted) && p.groups.getLsbD g.val) || decide (s.ctrl.identity < p.ident)

/-- R35: a group's next index. -/
def State.advanceIndex (s : State) (g : Group) : State :=
  let advance (x : Schedule) : Schedule :=
    if x.group = g then { x with index := wrapIndex (s.cadenceTicks g) (x.index + 1) } else x
  { s with cap := { s.cap with schedules := s.cap.schedules.map advance } }

/-- R35: the tag of an index. -/
def Schedule.tag (x : Schedule) : Tag := .cadence x.group (BitVec.ofNat 16 x.index)

/-- R35, case 4: a CADENCE capture is originated. -/
def State.originateCadence (s : State) (x : Schedule) : State :=
  let e := s.newEntry x.tag x.group (s.cadenceInstant x) .cadence (some (Origin.fresh none))
  (s.addEntry e).offer (.entry e.uid) (.call ⟨x.tag, x.group, e.time, .cadence, false⟩)

/-- R35: an index is settled in one of the four ways. -/
def State.settleIndex (s : State) (x : Schedule) : State :=
  if !s.elected x.group then s
  else if s.tagTaken x.tag then s
  else if Config.originPlaces ≤ s.originCount then s
  else
    match s.makeRoom with
    | none => s
    | some s => s.originateCadence x

/-- R32: local time has reached a group's cadence moment. -/
def State.cadenceDue (s : State) (g : Group) : Bool :=
  match s.schedule? g with
  | some x => s.joined && s.reachedNet (s.cadenceMomentOf x)
  | none => false

/-- R35: a group's cadence moment is taken. -/
def State.cadenceMoment (g : Group) (s : State) : State :=
  match s.schedule? g with
  | some x => if s.cadenceDue g then (s.settleIndex x).advanceIndex g else s
  | none => s

/-! ### Deadlines, retention, strobes -/

/-- R37, R43: the collection deadline of an entry in COLLECTING has come. -/
def State.deadlineDue (s : State) (e : Entry) : Bool :=
  match e.origin with
  | some { state := .collecting, deadline := some d, .. } => s.reachedNet d
  | _ => false

/-- R43: a deadline that has come is taken. -/
def State.takeDeadline (s : State) (uid : Nat) : State :=
  match s.entry? uid with
  | some e => if s.deadlineDue e then s.beginClosing uid else s
  | none => s

/-- R43: the deadline of the entry of a tag. -/
def State.collectionDeadline (tag : Tag) (s : State) : State :=
  match s.tagged? tag with
  | some e => s.takeDeadline e.uid
  | none => s

/-- R23: the retention end of the entry of a tag. -/
def State.retentionEnd (tag : Tag) (s : State) : State :=
  match s.tagged? tag with
  | some e => if s.retentionDue e then s.freeEntry e.uid else s
  | none => s

/-- R130: a pulse started at local time `now` for `width` µs. -/
def Strobe.start (now : Time) (width : Nat) : Strobe := ⟨true, some (addTicks now (width * Config.ticksPerUs))⟩

/-- R24, R130: a pulse is started on every strobe assigned to the group. -/
def State.pulse (s : State) (g : Group) : State :=
  let start (cfg : StrobeConfig) (x : Strobe) : Strobe :=
    if cfg.group = some g then Strobe.start s.time.localTime cfg.width else x
  { s with cap := { s.cap with
      strobe0 := start s.image.strobe0 s.cap.strobe0
      strobe1 := start s.image.strobe1 s.cap.strobe1 } }

/-- R24: a pending entry whose local instant has come. -/
def State.strobeDue (s : State) (e : Entry) : Bool := decide (e.strobe = .pending) && s.reachedNet e.time

/-- R24: the instant of the entry of a tag: the group's strobes pulse and the flag is done. -/
def State.strobeInstant (tag : Tag) (s : State) : State :=
  match s.tagged? tag with
  | some e =>
    if s.strobeDue e then (s.onEntry e.uid fun e => { e with strobe := .done }).pulse e.group else s
  | none => s

/-- R130: local time has reached the pulse end. -/
def State.pulseEndDue (s : State) (x : Strobe) : Bool :=
  match x.pulseEnd with
  | some e => s.reached e
  | none => false

/-- The strobe of a number. -/
def State.strobe (s : State) (j : StrobeNo) : Strobe := if j.val = 0 then s.cap.strobe0 else s.cap.strobe1

/-- The state with another strobe. -/
def State.setStrobe (s : State) (j : StrobeNo) (x : Strobe) : State :=
  if j.val = 0 then { s with cap := { s.cap with strobe0 := x } } else { s with cap := { s.cap with strobe1 := x } }

/-- R130: at its pulse end a strobe goes low. -/
def State.strobePulseEnd (j : StrobeNo) (s : State) : State :=
  if s.pulseEndDue (s.strobe j) then s.setStrobe j ⟨false, none⟩ else s

/-! ### A change of the correction (R74), from the capture unit's side -/

/-- R23: every member-only entry whose retention end the change has carried into the past is freed. -/
def State.freeExpired (s : State) : State :=
  ((s.cap.table.filter s.retentionDue).map Entry.uid).foldl State.freeEntry s

/-- R25: a pending entry whose local instant is no longer ahead is missed. -/
def State.missStrobes (s : State) : State :=
  let miss (e : Entry) : Entry := if s.strobeDue e then { e with strobe := .missed } else e
  { s with cap := { s.cap with table := s.cap.table.map miss } }

/-- R33: a schedule whose moment is no longer ahead is set afresh. -/
def State.passSchedules (s : State) : State :=
  let pass (x : Schedule) : Schedule :=
    if s.reachedNet (s.cadenceMomentOf x) then { x with index := s.firstIndex x.group } else x
  { s with cap := { s.cap with schedules := s.cap.schedules.map pass } }

/-- R37: the deadlines carried into the past are taken in table order. -/
def State.takeDeadlines (s : State) : State :=
  ((s.cap.table.filter s.deadlineDue).map Entry.uid).foldl State.takeDeadline s

/-- R74: the capture unit takes a change of the correction. -/
def State.captureCorrected (s : State) : State := s.freeExpired.missStrobes.passSchedules.takeDeadlines

/-! ### The change out of JOINED, from the capture unit's side -/

/-- R49: the term of a TRIGGERED origin part in CALLING whose CALL is not on the wire. -/
def State.lostAtFlush (s : State) (e : Entry) : Option TermNo :=
  match e.origin with
  | some o => if o.state = .calling ∧ ¬ s.link.callOnWire (.entry e.uid) then o.term else none
  | none => none

/-- R27, R49: the table, the declined list and the schedules are emptied, and the fires whose CALL is not on the wire
are lost. -/
def State.flushCapture (s : State) : State :=
  let lost := s.cap.table.filterMap s.lostAtFlush
  let s := { s with cap := { s.cap with table := [], declined := [], schedules := [] } }
  lost.foldl State.setFireLost s

/-! ### The commands -/

/-- CADENCE_MOMENT (R35). -/
def execCadenceMoment (dt : Lapse) (g : Group) (s : State) : Host.Outcome State Fault Refusal :=
  take dt (State.cadenceMoment g) s

/-- RETENTION_END (R23). -/
def execRetentionEnd (dt : Lapse) (tag : Tag) (s : State) : Host.Outcome State Fault Refusal :=
  take dt (State.retentionEnd tag) s

/-- COLLECTION_DEADLINE (R43). -/
def execCollectionDeadline (dt : Lapse) (tag : Tag) (s : State) : Host.Outcome State Fault Refusal :=
  take dt (State.collectionDeadline tag) s

/-- STROBE_INSTANT (R24). -/
def execStrobeInstant (dt : Lapse) (tag : Tag) (s : State) : Host.Outcome State Fault Refusal :=
  take dt (State.strobeInstant tag) s

/-- STROBE_PULSE_END (R130). -/
def execStrobePulseEnd (dt : Lapse) (j : StrobeNo) (s : State) : Host.Outcome State Fault Refusal :=
  take dt (State.strobePulseEnd j) s

/-- R54: a sample instant that local time has reached while sampling runs. -/
def State.sampleDue (s : State) : Option Time :=
  match s.hist.nextInstant with
  | some t => if s.running && s.reached t then some t else none
  | none => none

/-- R54, R65: the samples are appended, the capture unit resolves its entries, and the due presets are walked. In
LOADING an instant passes without a sample (R53). -/
def State.sampleInstant (s : State) : State :=
  match s.sampleDue with
  | some t => ((s.appendSamples t).resolveAll t).clearAndWalk
  | none =>
    if s.released ∧ s.ctrl.lifecycle = .loading then
      { s with hist := { s.hist with passed := some s.time.localTime } }
    else s

/-- SAMPLE_INSTANT (R54). -/
def execSampleInstant (dt : Lapse) (s : State) : Host.Outcome State Fault Refusal := take dt State.sampleInstant s

end Sys2Proof.Machine
end

