-- ==== Sys2Proof/Machine/Rounds.lean ====
section
/-!
DEFINITION. The time unit: hearing BEACON and LEAVE (R78 to R84), the agreement round (R85 to R90), the entry step (R91),
beacon slots (R75, R76) and a change of the correction (R74).
-/

namespace Sys2Proof.Machine

/-! ### The slot series (R75) -/

/-- R75: the network time a station's slots leave over in an interval. -/
def slotOffset (i : Ident) : Nat := i.toNat * Config.slotSpacing

/-- R75: a slot below 2^48, else the first slot of the series. -/
def wrapSlot (i : Ident) (t : Nat) : Time :=
  if t < 2 ^ 48 then BitVec.ofNat 48 t else BitVec.ofNat 48 (slotOffset i)

/-- R76: the first slot of the series that is later than the network time `t`. -/
def firstSlot (i : Ident) (t : Time) : Time :=
  let base := t.toNat / Config.beaconInterval * Config.beaconInterval + slotOffset i
  wrapSlot i (if t.toNat < base then base else base + Config.beaconInterval)

/-- R75: the slot that follows a slot of the series. -/
def nextSlotOf (i : Ident) (slot : Time) : Time := wrapSlot i (slot.toNat + Config.beaconInterval)

/-- R76: the next slot once `slot` has been taken. -/
def State.slotAfter (s : State) (slot : Time) : Time :=
  let next := nextSlotOf s.ctrl.identity slot
  if later next s.netTime then next else firstSlot s.ctrl.identity s.netTime

/-! ### The peer table (R80) -/

/-- R80: an entry put in its place by identity, in the place of an earlier one of that identity. -/
def putPeer (p : Peer) : List Peer → List Peer
  | [] => [p]
  | q :: rest =>
    if p.ident < q.ident then p :: q :: rest
    else if p.ident = q.ident then p :: rest
    else q :: putPeer p rest

/-- The entry of an identity. -/
def TimeUnit.peer? (t : TimeUnit) (i : Ident) : Option Peer := t.peers.find? fun p => decide (p.ident = i)

/-- R81: some peer is ADMITTED. -/
def TimeUnit.anyAdmitted (t : TimeUnit) : Bool := t.peers.any fun p => decide (p.state = .admitted)

/-- R79: the offset sample of a BEACON with its arrival stamp. -/
def State.offsetSample (s : State) (f : BeaconFrame) (edge : Time) : Time :=
  (f.stamp + BitVec.ofNat 48 s.image.busDelay) - (edge + s.time.correction)

/-- R81: the offset sample is accepted. -/
def State.accepts (s : State) (d : Time) : Bool :=
  decide (d.toInt.natAbs ≤ Config.rejectLimit) || !s.time.anyAdmitted

/-- R81, R82: state and counts of a peer entry after a BEACON; `none` is an unknown identity. R81 gives a new entry its
accepted count; that its in-limit count, which R89 sets before R90 reads it, starts at 0 is the model's choice
(assumption 27). -/
def beaconCounts (old : Option Peer) (accepted : Bool) : PeerState × Nat × Nat :=
  match old with
  | none => (.heard, if accepted then 1 else 0, 0)
  | some p =>
    match p.state with
    | .silent => (.heard, if accepted then 1 else 0, p.inLimit)
    | .heard =>
      if accepted then
        (if Config.admission ≤ p.accepted + 1 then .admitted else .heard, p.accepted + 1, p.inLimit)
      else (.heard, 0, p.inLimit)
    | .admitted | .suspect => (p.state, p.accepted, p.inLimit)

/-- R81: the peer entry a BEACON makes. -/
def State.beaconPeer (s : State) (sender : Ident) (f : BeaconFrame) (edge : Time) : Peer :=
  let d := s.offsetSample f edge
  let (state, accepted, inLimit) := beaconCounts (s.time.peer? sender) (s.accepts d)
  ⟨sender, state, edge, d, true, accepted, inLimit, f.groups, f.timeState⟩

/-- R81, R82: a BEACON from another station. -/
def State.beaconArrival (s : State) (sender : Ident) (f : BeaconFrame) (edge : Time) : State :=
  { s with time := { s.time with peers := putPeer (s.beaconPeer sender f edge) s.time.peers } }

/-- R78, R84: a LEAVE from another station, handed over with its arrival stamp, of which R84 makes no use. -/
def State.leaveArrival (s : State) (sender : Ident) (_edge : Time) : State :=
  { s with time := { s.time with peers := s.time.peers.filter fun p => decide (p.ident ≠ sender) } }

/-! ### A change of the correction (R74) -/

/-- R74: the correction changes by `delta`: every stored offset loses it, and the capture unit and the history unit
take the change. A change of 0 is none. -/
def State.correct (s : State) (delta : Time) : State :=
  if delta = 0 then s
  else
    let shift (p : Peer) : Peer := { p with offset := p.offset - delta }
    let s := { s with time := { s.time with
      correction := s.time.correction + delta
      peers := s.time.peers.map shift } }
    s.captureCorrected.walkPresets

/-! ### The round (R85) -/

/-- R83: the age of a peer. -/
def Peer.age (p : Peer) (now : Time) : Int := timeDiff now p.lastBeacon

/-- R83: a peer aged; none where it is removed. -/
def Peer.aged (p : Peer) (now : Time) : Option Peer :=
  if (Config.removeAge : Int) < p.age now then none
  else if (Config.silentAge : Int) < p.age now then some { p with state := .silent }
  else some p

/-- R83: the peer table aged. -/
def State.agePeers (s : State) : State :=
  { s with time := { s.time with peers := s.time.peers.filterMap fun p => p.aged s.time.localTime } }

/-- R86: the peer's offset enters the set. -/
def Peer.voting (p : Peer) : Bool := decide (p.state = .admitted) && p.fresh

/-- R86: the offsets of the peers that enter the set, beside the station's own 0. -/
def TimeUnit.votes (t : TimeUnit) : List Int := (t.peers.filter Peer.voting).map fun p => p.offset.toInt

/-- The smallest of a list of numbers; 0 of none. -/
def smallest (xs : List Int) : Int :=
  match xs with
  | [] => 0
  | x :: rest => rest.foldl min x

/-- The largest of a list of numbers; 0 of none. -/
def largest (xs : List Int) : Int :=
  match xs with
  | [] => 0
  | x :: rest => rest.foldl max x

/-- R86, R91: one instance of the largest and one of the smallest are dropped from a set of 4 or more values. -/
def trim (xs : List Int) : List Int :=
  if 4 ≤ xs.length then (xs.erase (largest xs)).erase (smallest xs) else xs

/-- R86, R91: half the sum of the smallest and largest values that remain, rounded toward zero. -/
def midpoint (xs : List Int) : Int := (smallest (trim xs) + largest (trim xs)).tdiv 2

/-- R87: the change of the correction for a midpoint. -/
def roundStep (m : Int) : Int :=
  if m.natAbs ≤ Config.stepLimit then m
  else if m.natAbs ≤ Config.jumpThreshold then (if m < 0 then -(Config.stepLimit : Int) else Config.stepLimit)
  else m

/-- R88: the time state a round sets, from the votes it had. -/
def roundState (votes : List Int) (m : Int) (anyAdmitted : Bool) (old : TimeState) : TimeState :=
  if votes.isEmpty then (if anyAdmitted then old else .free)
  else if m.natAbs ≤ Config.lockWindow then .locked else .locking

/-- R89, R90: the offset lies within the reject limit of the midpoint. -/
def withinLimit (offset m : Int) : Bool := decide ((offset - m).natAbs ≤ Config.rejectLimit)

/-- R89, R90: a peer judged against the midpoint by the offset `offset` it had before the adjustment; its fresh flag is
cleared. -/
def Peer.judged (p : Peer) (offset m : Int) : Peer :=
  let q := { p with fresh := false }
  if !p.fresh then q
  else
    match p.state with
    | .admitted => if withinLimit offset m then q else { q with state := .suspect, inLimit := 0 }
    | .suspect =>
      if withinLimit offset m then
        (if Config.recovery ≤ p.inLimit + 1 then { q with state := .admitted, inLimit := p.inLimit + 1 }
        else { q with inLimit := p.inLimit + 1 })
      else { q with inLimit := 0 }
    | .heard | .silent => q

/-- R85: an agreement round: aging, midpoint, adjustment, time state, judgement. The offsets judged are the stored ones
before the change, which is what R74 has taken from them put back. -/
def State.round (s : State) : State :=
  let s := s.agePeers
  let votes := s.time.votes
  let m := midpoint (0 :: votes)
  let anyAdmitted := s.time.anyAdmitted
  let delta : Time := BitVec.ofInt 48 (roundStep m)
  let s := s.correct delta
  { s with time := { s.time with
      state := roundState votes m anyAdmitted s.time.state
      peers := s.time.peers.map fun p => p.judged (p.offset + delta).toInt m } }

/-! ### The beacon slot (R76) -/

/-- R76: the next slot, where local time has reached it. -/
def State.slotDue (s : State) : Option Time :=
  match s.time.nextSlot with
  | some slot => if s.running && s.reachedNet slot then some slot else none
  | none => none

/-- R77: a BEACON is offered if the station is JOINED. -/
def State.offerBeacon (s : State) : State := if s.joined then s.offer .time (.beacon none) else s

/-- R76: a slot is taken: a round, a BEACON if JOINED, the next slot. -/
def State.beaconSlot (s : State) : State :=
  match s.slotDue with
  | none => s
  | some slot =>
    let s := s.round.offerBeacon
    { s with time := { s.time with nextSlot := some (s.slotAfter slot) } }

/-! ### The entry step (R91) -/

/-- R91: the offsets the entry step uses: those of the ADMITTED peers that announced LOCKING or LOCKED, else of all
ADMITTED peers. -/
def TimeUnit.entryVotes (t : TimeUnit) : List Int :=
  let admitted := t.peers.filter fun p => decide (p.state = .admitted)
  let agreed := admitted.filter fun p => decide (p.timeState ≠ .free)
  (if agreed.isEmpty then admitted else agreed).map fun p => p.offset.toInt

/-- R76, R91: at the entry step a next slot that is no longer ahead is passed over. -/
def State.passSlot (s : State) : State :=
  match s.time.nextSlot with
  | some slot =>
    if s.reachedNet slot then
      { s with time := { s.time with nextSlot := some (firstSlot s.ctrl.identity s.netTime) } }
    else s
  | none => s

/-- R91: the entry step. -/
def State.entryStep (s : State) : State :=
  if s.time.anyAdmitted then
    let delta : Time := BitVec.ofInt 48 (midpoint s.time.entryVotes)
    let corrected := s.correct delta
    let s := if delta = 0 then corrected else corrected.passSlot
    { s with time := { s.time with state := .locking } }
  else { s with time := { s.time with state := .free } }

/-- BEACON_SLOT (R76, R85 to R90). -/
def execBeaconSlot (dt : Lapse) (s : State) : Host.Outcome State Fault Refusal := take dt State.beaconSlot s

end Sys2Proof.Machine
end

