-- ==== Sys2Proof/Machine/Trigger.lean ====
section
/-!
DEFINITION. The trigger unit: the watched signals and the input filters (R116 to R118), PATTERN and CROSS terms (R120 to
R122), fires and hold-off (R125, R126), arming (R124, R128), and the encoder step, which the channel unit and the
trigger unit take together (R97).
-/

namespace Sys2Proof.Machine

/-! ### Terms -/

/-- R125, R126: the state of a term after a fire taken at local time `now`. -/
def TermConfig.afterFire (c : TermConfig) (now : Time) : TermState :=
  match c.mode with
  | .single => .disarmed
  | .continuous => if c.holdoff = 0 then .armed else .holdoff (addTicks now (c.holdoff * Config.ticksPerUs))

/-- R123: a term is judged: JOINED and not blocked. -/
def State.judged (s : State) (t : Term) : Bool := s.joined && !t.blocked

/-- R120: the levels of a PATTERN term's signals changed from `before` to `after`, with its required levels. -/
def Condition.patternChange (c : Condition) (before after : BitVec 16) : Option Bool :=
  match c with
  | .pattern signals required =>
    if (before ^^^ after) &&& signals = 0 then Option.none else some (patternTrue signals required after)
  | .none => Option.none
  | .cross _ _ _ => Option.none

/-- R120: a judged PATTERN term whose condition is found `found`: false sets the ready mark, true clears it, and a rising
condition fires an ARMED term. -/
def Term.found (t : Term) (c : TermConfig) (now : Time) (found : Bool) : Term :=
  if !found then { t with ready := true }
  else if t.ready && decide (t.state = .armed) then { t with ready := false, state := c.afterFire now }
  else { t with ready := false }

/-- R120: whether the condition found so fires the term. -/
def Term.risingFires (t : Term) (found : Bool) : Bool := found && t.ready && decide (t.state = .armed)

/-- R122: a counting edge from `before` to `after` crosses the threshold in the direction. -/
def crosses (d : Direction) (threshold before after : Count) : Bool :=
  let up := before.slt threshold && threshold.sle after
  let down := threshold.sle before && after.slt threshold
  match d with
  | .up => up
  | .down => down
  | .either => up || down

/-- R122: the counting edge of a channel is a crossing of the term's condition. -/
def Condition.crossed (c : Condition) (chan : Chan) (before after : Count) : Bool :=
  match c with
  | .cross ch d threshold => decide (ch = chan) && crosses d threshold before after
  | .none => false
  | .pattern _ _ => false

/-! ### Judging a change -/

/-- The state with the terms built anew. -/
def State.withTerms (s : State) (f : TermNo → Term) : State :=
  { s with trig := { s.trig with terms := Four.build f } }

/-- R120: what the change of the watched levels makes of term `i`. -/
def State.patternTerm (s : State) (before after : BitVec 16) (i : TermNo) : Term :=
  let t := s.trig.terms.get i
  let c := s.image.terms.get i
  match c.condition.patternChange before after with
  | some found => if s.judged t then t.found c s.time.localTime found else t
  | none => t

/-- R120: the PATTERN terms that fire at the change, in term order. -/
def State.patternFires (s : State) (before after : BitVec 16) : List TermNo :=
  four.filter fun i =>
    let t := s.trig.terms.get i
    match (s.image.terms.get i).condition.patternChange before after with
    | some found => s.judged t && t.risingFires found
    | none => false

/-- R122: term `i` fires at the counting edge. -/
def State.crossFires (s : State) (chan : Chan) (before after : Count) (i : TermNo) : Bool :=
  let t := s.trig.terms.get i
  s.judged t && decide (t.state = .armed) && (s.image.terms.get i).condition.crossed chan before after

/-- R122, R125: the terms after the counting edge. -/
def State.crossTerm (s : State) (chan : Chan) (before after : Count) (i : TermNo) : Term :=
  let t := s.trig.terms.get i
  if s.crossFires chan before after i then { t with state := (s.image.terms.get i).afterFire s.time.localTime } else t

/-! ### The encoder step (R97) -/

/-- R116: a signal takes a level; its stamp moves only where the level changes. -/
def Signal.take (x : Signal) (level : Bool) (stamp : Time) : Signal := if x.level = level then x else ⟨level, stamp⟩

/-- R116: the signals of a channel take the levels of a step. -/
def ChannelSignals.take (x : ChannelSignals) (l : Lines) (stamp : Time) : ChannelSignals :=
  ⟨x.a.take l.a stamp, x.b.take l.b stamp, x.r.take l.r stamp⟩

/-- The trigger unit's view of a channel's levels. -/
def ChannelSignals.lines (x : ChannelSignals) : Lines := ⟨x.a.level, x.b.level, x.r.level⟩

/-- The front end's levels of a channel change. -/
def State.setLevelPins (s : State) (i : Chan) (l : Lines) : State :=
  { s with pins := { s.pins with levels := s.pins.levels.set i l } }

/-- R97: the signals of channel `i` take the step's levels, and the decoder takes A and B. -/
def State.stepChannel (s : State) (i : Chan) (l : Lines) : State :=
  let signals := (s.trig.chans.get i).take l s.time.localTime
  let chan := (s.chans.get i).decode (s.image.modes.get i) l.a l.b s.image.quietTime s.time.localTime
  { s with
    trig := { s.trig with chans := s.trig.chans.set i signals }
    chans := s.chans.set i chan }

/-- R97: a step of an active channel: the signals change and the PATTERN terms are judged, the count moves and the CROSS
terms are judged on the counting edge, and the fires are requested. All of it is taken at the tick that stamps the step,
with no delay between the stamp and the taking of a fire (assumption 34). -/
def State.stepTaken (s : State) (i : Chan) (l : Lines) (first : List TermNo) : State :=
  let before := s.trig.levels
  let countBefore := (s.chans.get i).count
  let t := s.stepChannel i l
  let fires := t.patternFires before t.trig.levels
  let u := t.withTerms (t.patternTerm before t.trig.levels)
  let countAfter := (u.chans.get i).count
  if countBefore = countAfter then u.takeFires u.time.localTime (fireOrder first fires)
  else
    let crossings := four.filter (u.crossFires i countBefore countAfter)
    let v := u.withTerms (u.crossTerm i countBefore countAfter)
    v.takeFires v.time.localTime (fireOrder first (fires ++ crossings))

/-- R97: the levels of a channel's lines become `l`. A channel that is OFF, or a unit that does not run, takes no step. The
sender puts all the changes of one tick into one command; two commands of one channel at one local time are taken as two
steps (assumption 28). -/
def State.encoderStep (i : Chan) (l : Lines) (first : List TermNo) (s : State) : State :=
  let t := s.setLevelPins i l
  if t.running && t.active i && decide ((t.trig.chans.get i).lines ≠ l) then t.stepTaken i l first else t

/-! ### Digital inputs (R117) -/

/-- R117: local time has reached the end of a filter run of input `i`. -/
def State.runDue (s : State) (i : InputNo) (r : FilterRun) : Bool :=
  s.reached (addTicks r.start (s.image.filters.get i))

/-- R117: the raw level of an input changes: the runs whose end has not come are dropped, and the change starts its own. Two
changes of one input at one local time, which a filter of one tick's resolution cannot see, are two changes in the model:
with no filter both runs are kept and two filtered changes can be taken (assumption 28). -/
def State.rawChange (i : InputNo) (level : Bool) (s : State) : State :=
  if s.pins.inputs.get i = level then s
  else
    let t := { s with pins := { s.pins with inputs := s.pins.inputs.set i level } }
    if t.running then
      { t with trig := { t.trig with
          filters := t.trig.filters.set i ((t.trig.filters.get i).filter (t.runDue i) ++ [⟨level, t.time.localTime⟩]) } }
    else t

/-- R117: the oldest run of an input, where its end has come. -/
def State.endedRun (s : State) (i : InputNo) : Option FilterRun :=
  match s.trig.filters.get i with
  | r :: _ => if s.running && s.runDue i r then some r else none
  | [] => none

/-- R117: the run leaves the filter, and the input's signal takes its level with the stamp of the raw edge. -/
def State.takeRun (s : State) (i : InputNo) (r : FilterRun) : State :=
  { s with trig := { s.trig with
      inputs := s.trig.inputs.set i ((s.trig.inputs.get i).take r.level r.start)
      filters := s.trig.filters.set i (s.trig.filters.get i).tail } }

/-- R117, R120, R125: a filter run ends: the filtered level changes, the PATTERN terms are judged, and the fires are
requested with the stamp of the raw edge. -/
def State.filteredChange (i : InputNo) (first : List TermNo) (s : State) : State :=
  match s.endedRun i with
  | none => s
  | some r =>
    let before := s.trig.levels
    let t := s.takeRun i r
    let fires := t.patternFires before t.trig.levels
    let u := t.withTerms (t.patternTerm before t.trig.levels)
    u.takeFires r.start (fireOrder first fires)

/-! ### Hold-off, arming, starting -/

/-- R126: the hold-off expiry of a term that local time has reached. -/
def State.holdoffDue (s : State) (i : TermNo) : Bool :=
  match (s.trig.terms.get i).state with
  | .holdoff e => s.running && s.reached e
  | .disarmed | .armed => false

/-- R126: at its hold-off expiry a term is ARMED again. -/
def State.holdoffExpiry (i : TermNo) (s : State) : State :=
  if s.holdoffDue i then s.onTerm i fun t => { t with state := .armed } else s

/-- The condition is of kind PATTERN or CROSS. -/
def Condition.used (c : Condition) : Bool := decide (c ≠ .none)

/-- R123: the ready mark of a term that begins to be judged now. -/
def State.readyMark (s : State) (i : TermNo) : Bool :=
  s.judged (s.trig.terms.get i) && (s.image.terms.get i).condition.readyNow s.trig.levels

/-- R128: TERM-CONTROL ARM. -/
def State.armTerm (s : State) (i : TermNo) : State :=
  let ready := s.readyMark i
  if (s.image.terms.get i).condition.used then
    s.onTerm i fun t =>
      match t.state with
      | .disarmed => { t with state := .armed, fireLost := false, ready := ready }
      | .armed | .holdoff _ => { t with fireLost := false }
  else s

/-- R128: TERM-CONTROL DISARM. -/
def State.disarmTerm (s : State) (i : TermNo) : State :=
  if (s.image.terms.get i).condition.used then s.onTerm i fun t => { t with state := .disarmed } else s

/-- R128: the result of a TERM-CONTROL. -/
def State.termResult (s : State) (i : TermNo) : ReplyResult :=
  if (s.image.terms.get i).condition.used then .done else .noTerm

/-- R124: at the change to JOINED every term of kind PATTERN or CROSS is armed or disarmed, and begins to be judged. -/
def State.armAtJoin (s : State) : State :=
  s.withTerms fun i =>
    let t := s.trig.terms.get i
    let c := s.image.terms.get i
    if c.condition.used then
      { t with
        state := if c.armedAtJoin then .armed else .disarmed
        ready := !t.blocked && c.condition.readyNow s.trig.levels }
    else t

/-- R124: at the change out of JOINED every such term is disarmed, and its ready mark is cleared. -/
def State.disarmAll (s : State) : State :=
  s.withTerms fun i =>
    let t := s.trig.terms.get i
    if (s.image.terms.get i).condition.used then { t with state := .disarmed, ready := false } else t

/-- R118: the signals of a channel at the change to LISTENING: the front end's levels, stamped with the change; an OFF
channel's stay low, and keep the stamp 0, of which the rule says nothing (assumption 32). -/
def startSignals (m : ChannelMode) (l : Lines) (now : Time) : ChannelSignals :=
  match m with
  | .off => ⟨Signal.reset, Signal.reset, Signal.reset⟩
  | .quad4 | .pulseDir => ⟨⟨l.a, now⟩, ⟨l.b, now⟩, ⟨l.r, now⟩⟩

/-- R118: the trigger unit at the change to LISTENING. -/
def State.startTrigger (s : State) : State :=
  { s with trig := { s.trig with
      chans := Four.build fun i => startSignals (s.image.modes.get i) (s.pins.levels.get i) s.time.localTime
      inputs := Four.build fun i => ⟨s.pins.inputs.get i, s.time.localTime⟩
      filters := Four.all [] } }

/-! ### The commands -/

/-- ENCODER_STEP (R97 to R101, R116, R120 to R122, R125). -/
def execEncoderStep (dt : Lapse) (i : Chan) (a b r : Bool) (first : List TermNo) (s : State) :
    Host.Outcome State Fault Refusal :=
  take dt (State.encoderStep i ⟨a, b, r⟩ first) s

/-- DIGITAL_INPUT_RAW_CHANGE (R117). -/
def execDigitalInputRawChange (dt : Lapse) (i : InputNo) (level : Bool) (s : State) : Host.Outcome State Fault Refusal :=
  take dt (State.rawChange i level) s

/-- FILTERED_INPUT_CHANGE (R117, R120, R121, R125). -/
def execFilteredInputChange (dt : Lapse) (i : InputNo) (first : List TermNo) (s : State) :
    Host.Outcome State Fault Refusal :=
  take dt (State.filteredChange i first) s

/-- HOLDOFF_EXPIRY (R126). -/
def execHoldoffExpiry (dt : Lapse) (i : TermNo) (s : State) : Host.Outcome State Fault Refusal :=
  take dt (State.holdoffExpiry i) s

end Sys2Proof.Machine
end

