-- ==== Sys2Proof/Machine/Lifecycle.lean ====
section
/-!
DEFINITION. The station controller: resets (R163, R164), loading (R165 to R169), listening and the join (R170, R171), the
supply monitor (R172, R173), leaving and withdrawing (R174 to R176) and the identity conflict (R177).
-/

namespace Sys2Proof.Machine

/-! ### Resets -/

/-- R163: a reset hold begins: every block takes its reset values. -/
def State.beginHold (s : State) (kind : ResetKind) : State :=
  State.held ⟨kind, false, false⟩ s.ctrl.resetCause s.pins s.pending

/-- R163: a further condition extends the hold; what it says of the supply decides the cause at the release. -/
def Hold.extend (h : Hold) (c : ResetCondition) : Hold :=
  match c with
  | .below270 => { h with below270 := true }
  | .below150 => { h with below270 := true, below150 := true }
  | .nrstLow => h

/-- The state with another hold. -/
def State.withHold (s : State) (h : Hold) : State := { s with ctrl := { s.ctrl with hold := some h } }

/-- R163: a reset condition of the kind: it begins a hold, or extends the one that stands. -/
def State.resetCondition (kind : ResetKind) (c : ResetCondition) (s : State) : State :=
  match s.ctrl.hold with
  | some h => s.withHold (h.extend c)
  | none => s.beginHold kind

/-- R163: a further reset condition while a hold stands. -/
def State.furtherReset (c : ResetCondition) (s : State) : State :=
  match s.ctrl.hold with
  | some h => s.withHold (h.extend c)
  | none => s

/-- R163: the reset cause recorded at the release. -/
def Hold.cause (h : Hold) : ResetCause :=
  match h.begun with
  | .powerOn => .power
  | .supplyLow => if h.below150 then .power else .supply
  | .pin => if h.below150 then .power else if h.below270 then .supply else .pin

/-- R169: the station stops with its reason. -/
def State.halt (s : State) (reason : HaltReason) : State :=
  { s with ctrl := { s.ctrl with lifecycle := .halted, haltReason := some reason } }

/-- R164: the controller right after the release, with the straps read (R165). -/
def Controller.release (c : Controller) (h : Hold) (straps : Ident) (supplyNormal : Bool) : Controller where
  hold := none
  lifecycle := .loading
  resetCause := h.cause
  haltReason := none
  readFailures := 0
  listenTimer := none
  monitor := if supplyNormal then .normal else .warning
  identity := straps
  syncLine := c.syncLine
  faultLine := c.faultLine

/-- R164, R165: the last reset condition ends: local time starts at 0, the straps are read, and identity 0 halts the
station. -/
def State.resetRelease (straps : Ident) (supplyNormal : Bool) (s : State) : State :=
  match s.ctrl.hold with
  | none => s
  | some h =>
    let s := { s with
      ctrl := s.ctrl.release h straps supplyNormal
      time := { s.time with localTime := 0, phase := 0 } }
    if straps = 0 then s.halt .idZero else s

/-! ### Loading -/

/-- R114: the channel unit at the change to LISTENING. -/
def State.startChannels (s : State) : State :=
  { s with chans := Four.build fun i =>
      Channel.start (s.image.modes.get i) (s.image.monitors.get i) (s.pins.levels.get i) (s.pins.causes.get i) }

/-- R53, R170: sampling begins. -/
def State.startHistory (s : State) : State :=
  { s with hist := { s.hist with
      nextInstant := some (firstInstant s.time.localTime s.time.phase s.image.samplePeriod s.hist.passed) } }

/-- R76, R170: the next slot is set. -/
def State.startSlots (s : State) : State :=
  { s with time := { s.time with nextSlot := some (firstSlot s.ctrl.identity s.netTime) } }

/-- R133, R148, R170: the link unit begins to receive, with its idle count at 0. -/
def State.startLink (s : State) : State := s.withLink { s.link with idleCount := some 0, receiver := .waiting }

/-- R173: a warning in LISTENING: to WITHDRAWN, the listen timer stopped. -/
def State.withdraw (s : State) : State :=
  { s with ctrl := { s.ctrl with lifecycle := .withdrawn, listenTimer := none } }

/-- R170: the change from LOADING to LISTENING with an accepted image; a monitor at WARNING is taken as a warning there. -/
def State.startListening (s : State) (image : Image) : State :=
  let s := { s with image := image }
  let s := s.startChannels.startTrigger.startHistory.startSlots.startLink.listenAgain
  match s.ctrl.monitor with
  | .normal => s
  | .warning => s.withdraw

/-- R166: a read attempt fails; the third halts the station. -/
def State.readFailed (s : State) : State :=
  let n := s.ctrl.readFailures + 1
  let s := { s with ctrl := { s.ctrl with readFailures := n } }
  if Config.readAttempts ≤ n then s.halt .noMemory else s

/-- R166, R167: a read attempt ends. One that gave less than the whole image has failed. -/
def State.configRead (image : Option (List Byte)) (s : State) : State :=
  if !(s.released && decide (s.ctrl.lifecycle = .loading)) then s
  else
    match image with
    | none => s.readFailed
    | some bytes =>
      if bytes.length < Config.imageSize then s.readFailed
      else
        match Image.check bytes with
        | .ok image => s.startListening image
        | .error reason => s.halt reason

/-! ### The join -/

/-- R171: the change to JOINED: the entry step, then the schedules, and the terms armed. -/
def State.join (s : State) : State :=
  let s := { s with ctrl := { s.ctrl with lifecycle := .joined, listenTimer := none } }
  s.entryStep.setSchedules.armAtJoin

/-- R171: the listen timer's expiry that local time has reached. -/
def State.listenDue (s : State) : Bool :=
  match s.ctrl.listenTimer with
  | some e => s.released && decide (s.ctrl.lifecycle = .listening) && s.reached e
  | none => false

/-- R171: the listen timer expires. -/
def State.listenExpiry (s : State) : State := if s.listenDue then s.join else s

/-! ### Out of JOINED -/

/-- R27, R49, R69, R124, R149: what every block drops at a change out of JOINED to the state `l`. -/
def State.dropAll (s : State) (l : Lifecycle) : State :=
  let s := { s with ctrl := { s.ctrl with lifecycle := l } }
  s.flushCapture.clearPresets.disarmAll.flushLink

/-- R174: JOINED goes to LEAVING, and a LEAVE with reason POWER is offered. -/
def State.leave (s : State) : State := (s.dropAll .leaving).offer .controller (.leave 1)

/-- R172, R173: a warning is taken. -/
def State.supplyWarning (s : State) : State :=
  if !(s.released && decide (s.ctrl.monitor = .normal)) then s
  else
    let s := { s with ctrl := { s.ctrl with monitor := .warning } }
    match s.ctrl.lifecycle with
    | .listening => s.withdraw
    | .joined => s.leave
    | .loading | .halted | .leaving | .withdrawn | .muted => s

/-- R172, R173, R176: a clear is taken. -/
def State.supplyClear (s : State) : State :=
  if !(s.released && decide (s.ctrl.monitor = .warning)) then s
  else
    let s := { s with ctrl := { s.ctrl with monitor := .normal } }
    match s.ctrl.lifecycle with
    | .withdrawn => s.listenAgain
    | .loading | .halted | .listening | .joined | .leaving | .muted => s

/-- R177: a well-formed frame bears this station's identity. -/
def State.conflict (s : State) : State :=
  match s.ctrl.lifecycle with
  | .joined => s.dropAll .muted
  | .leaving => ({ s with ctrl := { s.ctrl with lifecycle := .muted } } : State).flushLink
  | .listening | .withdrawn => { s with ctrl := { s.ctrl with lifecycle := .muted, listenTimer := none } }
  | .loading | .halted | .muted => s

/-! ### The commands -/

/-- POWER_ON_RESET (R163). -/
def execPowerOnReset (dt : Lapse) (s : State) : Host.Outcome State Fault Refusal :=
  take dt (State.resetCondition .powerOn .below150) s

/-- SUPPLY_LOW_RESET (R163). -/
def execSupplyLowReset (dt : Lapse) (s : State) : Host.Outcome State Fault Refusal :=
  take dt (State.resetCondition .supplyLow .below270) s

/-- PIN_RESET (R163). -/
def execPinReset (dt : Lapse) (s : State) : Host.Outcome State Fault Refusal :=
  take dt (State.resetCondition .pin .nrstLow) s

/-- RESET_RELEASE (R164, R165). -/
def execResetRelease (dt : Lapse) (straps : Ident) (supplyNormal : Bool) (s : State) :
    Host.Outcome State Fault Refusal :=
  take dt (State.resetRelease straps supplyNormal) s

/-- FURTHER_RESET_CONDITION (R163). -/
def execFurtherResetCondition (dt : Lapse) (c : ResetCondition) (s : State) : Host.Outcome State Fault Refusal :=
  take dt (State.furtherReset c) s

/-- CONFIG_READ_ATTEMPT (R166 to R170). -/
def execConfigReadAttempt (dt : Lapse) (image : Option (List Byte)) (s : State) : Host.Outcome State Fault Refusal :=
  take dt (State.configRead image) s

/-- LISTEN_TIMER_EXPIRY (R171). -/
def execListenTimerExpiry (dt : Lapse) (s : State) : Host.Outcome State Fault Refusal := take dt State.listenExpiry s

/-- SUPPLY_WARNING (R172 to R174). -/
def execSupplyWarning (dt : Lapse) (s : State) : Host.Outcome State Fault Refusal := take dt State.supplyWarning s

/-- SUPPLY_CLEAR (R172, R173, R176). -/
def execSupplyClear (dt : Lapse) (s : State) : Host.Outcome State Fault Refusal := take dt State.supplyClear s

end Sys2Proof.Machine
end

