-- ==== Sys2Proof/Machine/Requests.lean ====
section
/-!
DEFINITION. The request unit: taking a REQUEST (R152 to R156), the reply list (R151, R157, R158) and the status snapshot
(R159 to R161).
-/

namespace Sys2Proof.Machine

/-! ### Replies -/

/-- R151, R153, R157: a REPLY is offered; its entry joins the reply list, and leaves it again where the REPLY is
refused. -/
def State.offerReply (s : State) (requester : Ident) (kind : Byte) (result : ReplyResult) : State :=
  let entry : ReplyEntry := ⟨s.req.nextId, requester, kind, result, false⟩
  let t := { s with req := { s.req with replies := s.req.replies ++ [entry], nextId := s.req.nextId + 1 } }
  t.offer (.reply s.req.nextId) (.reply requester none)

/-- R152: the request unit takes a REQUEST: it names this station, and the station is JOINED. -/
def State.takesRequest (s : State) (f : RequestFrame) : Bool := s.joined && decide (f.target = s.ctrl.identity)

/-- R153 to R156: a taken REQUEST is carried out; the result of its REPLY. -/
def State.carryOut (s : State) (r : Request) : State × ReplyResult :=
  match r with
  | .status => (s, .done)
  | .arm i => (s.armTerm i, s.termResult i)
  | .disarm i => (s.disarmTerm i, s.termResult i)
  | .faultAck chans => (s.ackChannels chans, if s.stillPresent chans then .stillPresent else .done)
  | .unknown => (s, .unknown)

/-- R152, R153: a REQUEST from another station. -/
def State.requestArrival (s : State) (sender : Ident) (f : RequestFrame) : State :=
  if s.takesRequest f then
    let (t, result) := s.carryOut f.read
    t.offerReply sender f.kind result
  else s

/-! ### The status snapshot (R160) -/

/-- R160: the peers in a state. -/
def TimeUnit.countPeers (t : TimeUnit) (x : PeerState) : Nat := (t.peers.filter fun p => decide (p.state = x)).length

/-- R160: a channel as the snapshot shows it. -/
def Channel.status (c : Channel) : ChannelStatus where
  quality := c.quality
  latched := ⟨c.recA.latched, c.recB.latched, c.recR.latched⟩
  causes := ⟨c.recA.cause, c.recB.cause, c.recR.cause⟩
  count := c.count
  epoch := c.epoch

/-- R119: a term's state as the snapshot shows it. -/
def TermState.phase : TermState → TermPhase
  | .disarmed => .disarmed
  | .armed => .armed
  | .holdoff _ => .holdoff

/-- R160: a term as the snapshot shows it. -/
def Term.status (t : Term) : TermStatus := ⟨t.state.phase, t.blocked, t.fireLost⟩

/-- R160, R161: the status snapshot as every block stands now. -/
def State.snapshot (s : State) : Snapshot where
  lifecycle := s.ctrl.lifecycle
  cause := s.ctrl.resetCause
  timeState := s.time.state
  quiet := s.req.quietMark
  admitted := s.time.countPeers .admitted
  suspect := s.time.countPeers .suspect
  heard := s.time.countPeers .heard
  chans := Four.build fun i => (s.chans.get i).status
  terms := Four.build fun i => (s.trig.terms.get i).status
  refusal := s.req.refusal
  tableEntries := s.cap.table.length
  originEntries := s.originCount
  queueFrames := s.link.count
  presets := s.hist.presets.length

/-- The reply-list entry of an id. -/
def State.reply? (s : State) (id : Nat) : Option ReplyEntry := s.req.replies.find? fun r => r.id == id

/-- R159: the composed mark of an entry is set, and the quiet mark is cleared. -/
def State.markComposed (s : State) (id : Nat) : State :=
  let mark (r : ReplyEntry) : ReplyEntry := if r.id = id then { r with composed := true } else r
  { s with req := { s.req with replies := s.req.replies.map mark, quietMark := false } }

/-- R159: the REPLY of a reply-list entry, composed now. -/
def State.composeReply (s : State) (r : ReplyEntry) : ReplyFrame := ⟨r.requester, r.kind, r.result, s.snapshot⟩

end Sys2Proof.Machine
end

