-- ==== Sys2Proof/Machine/Bus.lean ====
section
/-!
DEFINITION. The link unit on the bus: the start of a frame and what its owner composes (R134, R146), arbitration, bit
errors, sent and discarded frames, QUIET (R136 to R138, R147, R149), receiving, checking and routing (R139 to R141), and
the bus becoming idle (R133).
-/

namespace Sys2Proof.Machine

/-! ### Composing at a start notice (R146) -/

/-- R36: a peer is expected to answer captures of the group. -/
def Peer.expected (p : Peer) (g : Group) : Bool :=
  decide (p.state = .admitted ∨ p.state = .suspect) && p.groups.getLsbD g.val

/-- R36: the expected set of a group, as the peer table stands. -/
def State.expectedSet (s : State) (g : Group) : IdSet :=
  (s.time.peers.filter fun p => p.expected g).foldl (fun set p => set ||| identBit p.ident) (identBit s.ctrl.identity)

/-- R45: the identities expected but not counted. -/
def Origin.missing (o : Origin) : IdSet := o.expected &&& ~~~(o.responders ||| o.decliners)

/-- R45: the content of a CLOSE. -/
def closeOf (tag : Tag) (o : Origin) : CloseFrame := ⟨tag, decide (o.missing = 0), o.responders, o.decliners, o.missing⟩

/-- R77: the content of a BEACON that starts now. -/
def State.beaconNow (s : State) : BeaconFrame :=
  ⟨s.netTime, s.image.declared, s.ctrl.lifecycle, s.time.state, s.ctrl.resetCause⟩

/-- R36, R45, R77, R146, R159: the owner's part of a start notice: what it changes, and the frame's content from then
on. `started` says that the frame has been started before. -/
def State.compose (s : State) (owner : Owner) (c : Content) (started : Bool) : State × Content :=
  match owner, c with
  | .entry uid, .call f =>
    if started then (s, c)
    else (s.onEntry uid fun e => e.onOrigin fun o => { o with expected := s.expectedSet f.group }, c)
  | .entry uid, .close none =>
    match s.entry? uid with
    | some { tag := tag, origin := some o, .. } =>
      (s.onEntry uid fun e => e.onOrigin fun o => { o with begun := true }, .close (some (closeOf tag o)))
    | _ => (s, c)
  | .time, .beacon _ => (s, .beacon (some s.beaconNow))
  | .reply id, .reply requester none =>
    match s.reply? id with
    | some r =>
      if r.composed then (s, c) else (s.markComposed id, .reply requester (some (s.composeReply r)))
    | none => (s, c)
  | _, _ => (s, c)

/-- The kind and payload of an own frame; none where it is not composed yet. -/
def Content.body? : Content → Option Body
  | .call f => some (.call f)
  | .report f => some (.report f)
  | .close f => f.map Body.close
  | .leave reason => some (.leave reason)
  | .beacon f => f.map Body.beacon
  | .reply _ f => f.map Body.reply

/-- R135, R178: the frame an own content goes out as: its kind's class and this station's identity in the priority
byte. -/
def Content.frame? (c : Content) (sender : Ident) : Option Frame :=
  c.body?.map fun b => ⟨BitVec.ofNat 2 c.cls, sender, b⟩

/-- R178: the bytes of an own content on the wire, in the layouts of R178 to R183. -/
def Content.wire (c : Content) (sender : Ident) : List Byte :=
  match c.frame? sender with
  | some f => f.encode
  | none => []

/-! ### The start of a frame (R134) -/

/-- R134: the frame that starts: the frame that awaits its retry, else the head of the queue. -/
def LinkUnit.candidate (l : LinkUnit) : Option QFrame :=
  match l.flight with
  | some fl => if fl.onWire then none else some fl.frame
  | none => l.queue.head?

/-- The bus is idle (R133). -/
def LinkUnit.busIdle (l : LinkUnit) : Bool :=
  match l.idleCount with
  | some n => decide (Config.idleBits ≤ n)
  | none => false

/-- R134: the lifecycle state allows the start: JOINED any frame, LEAVING only a LEAVE. -/
def Lifecycle.allows (l : Lifecycle) (c : Content) : Bool :=
  match l with
  | .joined => true
  | .leaving => match c with | .leave _ => true | .call _ | .report _ | .close _ | .beacon _ | .reply _ _ => false
  | .loading | .halted | .listening | .withdrawn | .muted => false

/-- R134: the frame that starts now, where the four conditions hold together. A frame offered on an idle bus can start at
the tick of its offer (assumption 35). -/
def State.starting (s : State) : Option QFrame :=
  match s.link.candidate with
  | some f =>
    if s.released && s.link.busIdle && decide (s.link.state = .active) && s.ctrl.lifecycle.allows f.content then some f
    else none
  | none => none

/-- R134: the link unit with frame `f`, from the queue or from its wait, in flight and on the wire since the start edge
`now`; the bus is no longer idle, and an own error mark is past. -/
def LinkUnit.launch (l : LinkUnit) (f : QFrame) (now : Time) : LinkUnit :=
  { l with
    queue := match l.flight with | some _ => l.queue | none => l.queue.tail
    flight := some ⟨{ f with started := true }, [], true, false⟩
    idleCount := some 0
    receiver := .taking now
    mark := none }

/-- R146, R178: the frame in flight with its content composed, and the bytes it goes out as. -/
def LinkUnit.fixContent (l : LinkUnit) (c : Content) (bytes : List Byte) : LinkUnit :=
  { l with flight := l.flight.map fun fl => { fl with frame := { fl.frame with content := c }, bytes := bytes } }

/-- R134, R146, R178: a frame starts, and its owner composes its content at the start notice. -/
def State.frameStart (s : State) : State :=
  match s.starting with
  | none => s
  | some f =>
    let (t, c) := (s.withLink (s.link.launch f s.time.localTime)).compose f.owner f.content f.started
    t.withLink (t.link.fixContent c (c.wire s.ctrl.identity))

/-! ### What becomes of a frame on the wire -/

/-- The frame whose bits are going out, with the place in it of the bit that begins now: none before its first bit and
after its last. -/
def State.bitNow (s : State) : Option (Flight × Nat) :=
  match s.link.onWire?, s.link.receiver with
  | some fl, .taking edge =>
    let k := (s.time.localTime - edge).toNat
    if k < Config.byteBits * fl.bytes.length then some (fl, k) else none
  | _, _ => none

/-- R136: the frame that can lose arbitration in the bit that begins now: one of the priority byte that this station
drives recessive. The byte's own stop bit counts as a bit of it (assumption 37). -/
def State.contested (s : State) : Option Flight :=
  match s.bitNow with
  | some (fl, k) => if decide (k < Config.byteBits) && !dominantBit fl.bytes k then some fl else none
  | none => none

/-- R137: the frame that can meet a bit error in the bit that begins now, and whether this station drives that bit
dominant: any bit of the frame but a recessive one of the priority byte, where a difference is lost arbitration. -/
def State.erring (s : State) : Option (Flight × Bool) :=
  match s.bitNow with
  | some (fl, k) =>
    if decide (k < Config.byteBits) && !dominantBit fl.bytes k then none else some (fl, dominantBit fl.bytes k)
  | none => none

/-- R136, R149: arbitration is lost in the bit that begins now, which reads dominant: the frame returns to the queue with its
attempts kept, and the station goes on receiving the winner's frame, whose start edge is the one the two had; a frame that
a change out of JOINED left to finish is withdrawn. A BEACON, a REPLY or a REPORT returns even where a newer one was queued
while it was in flight, and a CLOSE even where its entry was freed (R48) while it was in flight (assumption 21). -/
def State.lostArbitration (s : State) : State :=
  match s.contested with
  | none => s
  | some fl =>
    let link := { s.link with flight := none, idleCount := some 0 }
    if fl.finishing then (s.withLink link).lose fl.frame .withdrawn
    else s.withLink { link with queue := insertFrame fl.frame link.queue }

/-- R147: the link goes QUIET for 100 ms, and the request unit marks it (R151). -/
def State.goQuiet (s : State) : State :=
  { s with
    link := { s.link with discards := 0, state := .quiet (addTicks s.time.localTime Config.quietPeriod) }
    req := { s.req with quietMark := true } }

/-- R138, R147: a discard is counted; the third in a row makes the link QUIET. -/
def State.countDiscard (s : State) : State :=
  let n := s.link.discards + 1
  if Config.discardLimit ≤ n then s.goQuiet else s.withLink { s.link with discards := n }

/-- R137, R138, R149: a bit error in the bit that begins now: a recessive bit of this station's reads dominant, or a
dominant one recessive. The attempt has failed and the frame awaits its retry, or is discarded at its fourth
failed attempt, or at once where a change out of JOINED left it to finish. In each case the station drives an error mark
from the next bit boundary on, the tick after the bit error's (assumption 31). -/
def State.bitError (s : State) : State :=
  match s.erring with
  | none => s
  | some (fl, dominant) =>
    let frame := { fl.frame with attempts := fl.frame.attempts + 1 }
    let link := { s.link with
      idleCount := if dominant then s.link.idleCount else some 0, receiver := .waiting, mark := some (addTicks s.time.localTime 1) }
    if fl.finishing then (s.withLink { link with flight := none }).lose frame .failed
    else if Config.attemptLimit ≤ frame.attempts then
      ((s.withLink { link with flight := none }).countDiscard).lose frame .failed
    else s.withLink { link with flight := some ⟨frame, fl.bytes, false, false⟩ }

/-- R137: this station drives its error mark now: 12 dominant bits of one tick each. -/
def State.marking (s : State) : Bool :=
  match s.link.mark with
  | some m => decide ((s.time.localTime - m).toNat < Config.markBits)
  | none => false

/-- R133, R135: the local time at which the last stop bit of a frame of `n` bytes ends, from its start edge on: ten bits
to the byte, of one tick each (assumption 29). -/
def frameEnd (edge : Time) (n : Nat) : Time := addTicks edge (Config.byteBits * n)

/-- R138: the own frame on the wire whose last stop bit has passed. -/
def State.sentDue (s : State) : Option Flight :=
  match s.link.onWire?, s.link.receiver with
  | some fl, .taking edge => if s.reached (frameEnd edge fl.bytes.length) then some fl else none
  | _, _ => none

/-- R138: the frame ends with no bit error: its owner gets *sent*, and the discard count goes back to 0. The idle count
begins anew from the frame's last stop bit on (R134; assumption 36). -/
def State.frameSent (s : State) : State :=
  match s.sentDue with
  | none => s
  | some fl =>
    (s.withLink { s.link with flight := none, discards := 0, idleCount := some 0, receiver := .waiting }).sentOutcome
      fl.frame

/-- R147: the quiet end that local time has reached. -/
def State.quietDue (s : State) : Bool :=
  match s.link.state with
  | .quiet e => s.running && s.reached e
  | .active => false

/-- R147: at the quiet end the link is ACTIVE again. -/
def State.quietEnd (s : State) : State := if s.quietDue then s.withLink { s.link with state := .active } else s

/-! ### Receiving (R139 to R141) -/

/-- R139: the start edge of the frame of another station that the receiver is taking: the link unit receives, and no
own frame is on the wire. -/
def State.receiving (s : State) : Option Time :=
  match s.link.receiver with
  | .taking edge => if s.running && !s.link.sending then some edge else none
  | .ready | .waiting => none

/-- R139: the start edge of the frame that the receiver takes whole now as these bytes: its last stop bit has passed. -/
def State.frameEnds (s : State) (bytes : List Byte) : Option Time :=
  match s.receiving with
  | some edge => if s.reached (frameEnd edge bytes.length) then some edge else none
  | none => none

/-- R139: after an arrival the receiver waits until the bus has been idle again. The idle count begins anew from the
frame's last stop bit on (R134; assumption 36). -/
def State.endReception (s : State) : State := s.withLink { s.link with idleCount := some 0, receiver := .waiting }

/-- R140, R141, R177: the frame of an arrival's bytes is checked and handed on, if it is of the arrival's own kind: an
ill-formed one is discarded, one that bears this station's identity goes to the station controller, and any other with
its arrival stamp (R78) to `deliver`. -/
def State.arrival (s : State) (bytes : List Byte) (mine : Body → Bool) (deliver : Time → Frame → State → State) : State :=
  match s.frameEnds bytes with
  | none => s
  | some edge =>
    match Frame.decode bytes with
    | none => s.endReception
    | some f =>
      if !mine f.body then s
      else if f.sender = s.ctrl.identity then s.endReception.conflict
      else deliver edge f s.endReception

/-- R78: an arrival handed on with the stamp `edge`. The link unit has noted the start edge of the frame it takes, so an
arrival with another stamp is none of that frame's, and changes nothing (assumption 13). -/
def State.stampedArrival (s : State) (bytes : List Byte) (edge : Time) (mine : Body → Bool)
    (deliver : Time → Frame → State → State) : State :=
  if s.frameEnds bytes = some edge then s.arrival bytes mine deliver else s

/-- R133, R139, R140: the idle count at the bit in which a frame is lost: a stop bit that reads dominant puts it back to
0; at a recessive bit, or behind a length over 64, it stands as it has counted. -/
def LinkUnit.idleAtLoss (l : LinkUnit) (kind : FramingKind) : Option Nat :=
  match kind with
  | .dominantStop => some 0
  | .missingStart | .overlong => l.idleCount

/-- R139, R140: the receiver loses the frame it is taking and waits until the bus has been idle again. -/
def State.framingError (kind : FramingKind) (s : State) : State :=
  if s.receiving.isSome then s.withLink { s.link with idleCount := s.link.idleAtLoss kind, receiver := .waiting } else s

/-- R133: the idle count has reached 12, and the receiver waits for that. -/
def State.idleDue (s : State) : Bool :=
  s.running && s.link.busIdle && decide (s.link.receiver = .waiting)

/-- R133, R139: the bus has become idle, and the receiver may again take a start bit as a frame start. The count goes on
until the next dominant bit, and an own error mark is past. -/
def State.becomeIdle (s : State) : State :=
  if s.idleDue then s.withLink { s.link with receiver := .ready, mark := none } else s

/-- R78 to R82: a BEACON handed to the time unit. -/
def deliverBeacon (edge : Time) (f : Frame) (s : State) : State :=
  match f.body with
  | .beacon b => s.beaconArrival f.sender b edge
  | _ => s

/-- R78, R84: a LEAVE handed to the time unit. -/
def deliverLeave (edge : Time) (f : Frame) (s : State) : State := s.leaveArrival f.sender edge

/-- A CALL handed to the capture unit. -/
def deliverCall (_edge : Time) (f : Frame) (s : State) : State :=
  match f.body with
  | .call b => s.callArrival b
  | _ => s

/-- A REPORT handed to the capture unit. -/
def deliverReport (_edge : Time) (f : Frame) (s : State) : State :=
  match f.body with
  | .report b => s.reportArrival f.sender b
  | _ => s

/-- A CLOSE handed to the capture unit. -/
def deliverClose (_edge : Time) (f : Frame) (s : State) : State :=
  match f.body with
  | .close b => s.closeArrival f.sender b
  | _ => s

/-- A PRESET handed to the history unit. -/
def deliverPreset (_edge : Time) (f : Frame) (s : State) : State :=
  match f.body with
  | .preset b => s.presetArrival f.sender b
  | _ => s

/-- A REQUEST handed to the request unit. -/
def deliverRequest (_edge : Time) (f : Frame) (s : State) : State :=
  match f.body with
  | .request b => s.requestArrival f.sender b
  | _ => s

/-- The body is a BEACON. -/
def Body.isBeacon : Body → Bool
  | .beacon _ => true
  | _ => false

/-- The body is a LEAVE. -/
def Body.isLeave : Body → Bool
  | .leave _ => true
  | _ => false

/-- The body is a CALL. -/
def Body.isCall : Body → Bool
  | .call _ => true
  | _ => false

/-- The body is a REPORT. -/
def Body.isReport : Body → Bool
  | .report _ => true
  | _ => false

/-- The body is a CLOSE. -/
def Body.isClose : Body → Bool
  | .close _ => true
  | _ => false

/-- The body is a PRESET. -/
def Body.isPreset : Body → Bool
  | .preset _ => true
  | _ => false

/-- The body is a REPLY. -/
def Body.isReply : Body → Bool
  | .reply _ => true
  | _ => false

/-- The body is a REQUEST that reads as one that `p` holds of. -/
def Body.isRequest (p : Request → Bool) : Body → Bool
  | .request f => p f.read
  | _ => false

/-- The request is a STATUS. -/
def Request.isStatus : Request → Bool
  | .status => true
  | _ => false

/-- The request is a TERM-CONTROL ARM. -/
def Request.isArm : Request → Bool
  | .arm _ => true
  | _ => false

/-- The request is a TERM-CONTROL DISARM. -/
def Request.isDisarm : Request → Bool
  | .disarm _ => true
  | _ => false

/-- The request is a FAULT-ACK. -/
def Request.isFaultAck : Request → Bool
  | .faultAck _ => true
  | _ => false

/-- The request is unknown. -/
def Request.isUnknown : Request → Bool
  | .unknown => true
  | _ => false

/-! ### The commands -/

/-- BEACON_ARRIVAL (R78 to R82). -/
def execBeaconArrival (dt : Lapse) (frame : List Byte) (edge : Time) (s : State) : Host.Outcome State Fault Refusal :=
  take dt (fun s => s.stampedArrival frame edge Body.isBeacon deliverBeacon) s

/-- LEAVE_ARRIVAL (R84). -/
def execLeaveArrival (dt : Lapse) (frame : List Byte) (s : State) : Host.Outcome State Fault Refusal :=
  take dt (fun s => s.arrival frame Body.isLeave deliverLeave) s

/-- CALL_ARRIVAL (R7 to R14). -/
def execCallArrival (dt : Lapse) (frame : List Byte) (s : State) : Host.Outcome State Fault Refusal :=
  take dt (fun s => s.arrival frame Body.isCall deliverCall) s

/-- REPORT_ARRIVAL (R21, R40, R46). -/
def execReportArrival (dt : Lapse) (frame : List Byte) (s : State) : Host.Outcome State Fault Refusal :=
  take dt (fun s => s.arrival frame Body.isReport deliverReport) s

/-- CLOSE_ARRIVAL (R22, R48). -/
def execCloseArrival (dt : Lapse) (frame : List Byte) (s : State) : Host.Outcome State Fault Refusal :=
  take dt (fun s => s.arrival frame Body.isClose deliverClose) s

/-- PRESET_ARRIVAL (R58 to R63). -/
def execPresetArrival (dt : Lapse) (frame : List Byte) (s : State) : Host.Outcome State Fault Refusal :=
  take dt (fun s => s.arrival frame Body.isPreset deliverPreset) s

/-- STATUS_REQUEST (R154). -/
def execStatusRequest (dt : Lapse) (frame : List Byte) (s : State) : Host.Outcome State Fault Refusal :=
  take dt (fun s => s.arrival frame (Body.isRequest Request.isStatus) deliverRequest) s

/-- TERM_CONTROL_ARM (R128, R155). -/
def execTermControlArm (dt : Lapse) (frame : List Byte) (s : State) : Host.Outcome State Fault Refusal :=
  take dt (fun s => s.arrival frame (Body.isRequest Request.isArm) deliverRequest) s

/-- TERM_CONTROL_DISARM (R128, R155). -/
def execTermControlDisarm (dt : Lapse) (frame : List Byte) (s : State) : Host.Outcome State Fault Refusal :=
  take dt (fun s => s.arrival frame (Body.isRequest Request.isDisarm) deliverRequest) s

/-- FAULT_ACK (R109, R156). -/
def execFaultAck (dt : Lapse) (frame : List Byte) (s : State) : Host.Outcome State Fault Refusal :=
  take dt (fun s => s.arrival frame (Body.isRequest Request.isFaultAck) deliverRequest) s

/-- UNKNOWN_REQUEST (R153). -/
def execUnknownRequest (dt : Lapse) (frame : List Byte) (s : State) : Host.Outcome State Fault Refusal :=
  take dt (fun s => s.arrival frame (Body.isRequest Request.isUnknown) deliverRequest) s

/-- REPLY_ARRIVAL (R141): a REPLY has no owner and is dropped after the checks. -/
def execReplyArrival (dt : Lapse) (frame : List Byte) (s : State) : Host.Outcome State Fault Refusal :=
  take dt (fun s => s.arrival frame Body.isReply (fun _ _ s => s)) s

/-- FRAME_START (R134, R146). -/
def execFrameStart (dt : Lapse) (s : State) : Host.Outcome State Fault Refusal := take dt State.frameStart s

/-- LOST_ARBITRATION (R136, R149). -/
def execLostArbitration (dt : Lapse) (s : State) : Host.Outcome State Fault Refusal := take dt State.lostArbitration s

/-- BIT_ERROR (R137, R138, R149). -/
def execBitError (dt : Lapse) (s : State) : Host.Outcome State Fault Refusal := take dt State.bitError s

/-- FRAME_SENT (R138, R145). -/
def execFrameSent (dt : Lapse) (s : State) : Host.Outcome State Fault Refusal := take dt State.frameSent s

/-- QUIET_END (R147). -/
def execQuietEnd (dt : Lapse) (s : State) : Host.Outcome State Fault Refusal := take dt State.quietEnd s

/-- FRAMING_ERROR (R139, R140): whichever way the frame is lost, the receiver discards it and waits for idle. -/
def execFramingError (dt : Lapse) (kind : FramingKind) (s : State) : Host.Outcome State Fault Refusal :=
  take dt (State.framingError kind) s

/-- BUS_IDLE (R133, R139). -/
def execBusIdle (dt : Lapse) (s : State) : Host.Outcome State Fault Refusal := take dt State.becomeIdle s

end Sys2Proof.Machine
end

