-- ==== Sys2Proof/Machine/Dispatch.lean ====
section
/-!
DEFINITION. The meaning of every command, one arm each.
-/

namespace Sys2Proof.Machine

open Sys2Proof

def exec (i : Instr) (s : State) : Host.Outcome State Fault Refusal :=
  match i with
  | .powerOnReset dt => Sys2Proof.Machine.execPowerOnReset dt s
  | .supplyLowReset dt => Sys2Proof.Machine.execSupplyLowReset dt s
  | .pinReset dt => Sys2Proof.Machine.execPinReset dt s
  | .resetRelease dt straps supplyNormal => Sys2Proof.Machine.execResetRelease dt straps supplyNormal s
  | .configReadAttempt dt image => Sys2Proof.Machine.execConfigReadAttempt dt image s
  | .listenTimerExpiry dt => Sys2Proof.Machine.execListenTimerExpiry dt s
  | .supplyWarning dt => Sys2Proof.Machine.execSupplyWarning dt s
  | .supplyClear dt => Sys2Proof.Machine.execSupplyClear dt s
  | .beaconArrival dt frame edge => Sys2Proof.Machine.execBeaconArrival dt frame edge s
  | .leaveArrival dt frame => Sys2Proof.Machine.execLeaveArrival dt frame s
  | .callArrival dt frame => Sys2Proof.Machine.execCallArrival dt frame s
  | .reportArrival dt frame => Sys2Proof.Machine.execReportArrival dt frame s
  | .closeArrival dt frame => Sys2Proof.Machine.execCloseArrival dt frame s
  | .presetArrival dt frame => Sys2Proof.Machine.execPresetArrival dt frame s
  | .statusRequest dt frame => Sys2Proof.Machine.execStatusRequest dt frame s
  | .termControlArm dt frame => Sys2Proof.Machine.execTermControlArm dt frame s
  | .termControlDisarm dt frame => Sys2Proof.Machine.execTermControlDisarm dt frame s
  | .faultAck dt frame => Sys2Proof.Machine.execFaultAck dt frame s
  | .unknownRequest dt frame => Sys2Proof.Machine.execUnknownRequest dt frame s
  | .replyArrival dt frame => Sys2Proof.Machine.execReplyArrival dt frame s
  | .frameStart dt => Sys2Proof.Machine.execFrameStart dt s
  | .lostArbitration dt => Sys2Proof.Machine.execLostArbitration dt s
  | .bitError dt => Sys2Proof.Machine.execBitError dt s
  | .frameSent dt => Sys2Proof.Machine.execFrameSent dt s
  | .quietEnd dt => Sys2Proof.Machine.execQuietEnd dt s
  | .beaconSlot dt => Sys2Proof.Machine.execBeaconSlot dt s
  | .sampleInstant dt => Sys2Proof.Machine.execSampleInstant dt s
  | .cadenceMoment dt group => Sys2Proof.Machine.execCadenceMoment dt group s
  | .retentionEnd dt tag => Sys2Proof.Machine.execRetentionEnd dt tag s
  | .collectionDeadline dt tag => Sys2Proof.Machine.execCollectionDeadline dt tag s
  | .strobeInstant dt tag => Sys2Proof.Machine.execStrobeInstant dt tag s
  | .strobePulseEnd dt strobe => Sys2Proof.Machine.execStrobePulseEnd dt strobe s
  | .presetDue dt => Sys2Proof.Machine.execPresetDue dt s
  | .encoderStep dt chan a b r first => Sys2Proof.Machine.execEncoderStep dt chan a b r first s
  | .lineCauseAppears dt chan line => Sys2Proof.Machine.execLineCauseAppears dt chan line s
  | .lineCauseDisappears dt chan line => Sys2Proof.Machine.execLineCauseDisappears dt chan line s
  | .autoAckTimerExpiry dt chan => Sys2Proof.Machine.execAutoAckTimerExpiry dt chan s
  | .digitalInputRawChange dt input level => Sys2Proof.Machine.execDigitalInputRawChange dt input level s
  | .filteredInputChange dt input first => Sys2Proof.Machine.execFilteredInputChange dt input first s
  | .holdoffExpiry dt term => Sys2Proof.Machine.execHoldoffExpiry dt term s
  | .furtherResetCondition dt condition => Sys2Proof.Machine.execFurtherResetCondition dt condition s
  | .framingError dt kind => Sys2Proof.Machine.execFramingError dt kind s
  | .busIdle dt => Sys2Proof.Machine.execBusIdle dt s

end Sys2Proof.Machine
end

