-- ==== Sys2Proof/Machine/Idle.lean ====
section
/-!
DEFINITION. What the part does while no command waits: an event of its own that is due now is taken, and where none is
due one tick of local time passes (assumption 3).
-/

namespace Sys2Proof.Machine

/-- `c` where `due` holds. -/
def dueIf (due : Bool) (c : Instr) : List Instr := if due then [c] else []

/-- The events of the part's own that are due now, in the order of the table: the listen timer, the start of a frame,
its end with no bit error, the quiet end, the beacon slot, the sample instant, the cadence moments, the retention ends,
the collection deadlines, the strobe instants, the pulse ends, the due presets, the auto-acknowledge timers, the filter
runs, the hold-offs and the bus becoming idle. -/
def State.dueEvents (s : State) : List Instr :=
  dueIf s.listenDue (.listenTimerExpiry (after 0)) ++
  dueIf s.starting.isSome (.frameStart (after 0)) ++
  dueIf s.sentDue.isSome (.frameSent (after 0)) ++
  dueIf s.quietDue (.quietEnd (after 0)) ++
  dueIf s.slotDue.isSome (.beaconSlot (after 0)) ++
  dueIf s.sampleDue.isSome (.sampleInstant (after 0)) ++
  eight.flatMap (fun g => dueIf (s.cadenceDue g) (.cadenceMoment (after 0) g)) ++
  s.cap.table.flatMap (fun e => dueIf (s.retentionDue e) (.retentionEnd (after 0) e.tag)) ++
  s.cap.table.flatMap (fun e => dueIf (s.deadlineDue e) (.collectionDeadline (after 0) e.tag)) ++
  s.cap.table.flatMap (fun e => dueIf (s.strobeDue e) (.strobeInstant (after 0) e.tag)) ++
  dueIf (s.pulseEndDue s.cap.strobe0) (.strobePulseEnd (after 0) 0) ++
  dueIf (s.pulseEndDue s.cap.strobe1) (.strobePulseEnd (after 0) 1) ++
  dueIf s.presetDue (.presetDue (after 0)) ++
  four.flatMap (fun i => dueIf (s.autoAckDue i) (.autoAckTimerExpiry (after 0) i)) ++
  four.flatMap (fun i => dueIf (s.endedRun i).isSome (.filteredInputChange (after 0) i [])) ++
  four.flatMap (fun i => dueIf (s.holdoffDue i) (.holdoffExpiry (after 0) i)) ++
  dueIf s.idleDue (.busIdle (after 0))

/-- One step of the part with no command waiting. -/
def idle (s : State) : Host.Outcome State Fault Refusal :=
  match s.dueEvents.head? with
  | some c => exec c s
  | none => .next (s.elapse (after 1))

end Sys2Proof.Machine
end

