-- ==== Sys2Proof/Safety.lean ====
section
/-!
DEFINITION. What counts as a sound state of the TQ-4: the bounds and agreements the rules state of every state, as Bool
checks over the state; which frames the formats can carry; the command that takes a received frame; a run of commands.
-/

namespace Sys2Proof.Machine

/-- R4: at most 16 entries, at most 4 of them with an origin part, and no two with equal tags. -/
def State.tableSound (s : State) : Bool :=
  decide (s.cap.table.length ≤ Config.tableSize ∧ s.originCount ≤ Config.originPlaces ∧ (s.cap.table.map Entry.tag).Nodup)

/-- R142: at most 12 frames in the queue, the frame in flight included. -/
def State.queueSound (s : State) : Bool := decide (s.link.count ≤ Config.queueSize)

/-- R133, R134, R137, R139: the bus is idle while the receiver is ready for a start bit; while an own frame is
on the wire the blocks run and the receiver follows it from its start edge; and from an own error mark on the receiver
waits, until the bus has been idle. -/
def State.receiverSound (s : State) : Bool :=
  (decide (s.link.receiver ≠ .ready) || s.link.busIdle) &&
    (!s.link.sending || (s.running && match s.link.receiver with | .taking _ => true | .ready | .waiting => false)) &&
    (s.link.mark.isNone || decide (s.link.receiver = .waiting))

/-- R63: at most 4 pending presets. -/
def State.presetsSound (s : State) : Bool := decide (s.hist.presets.length ≤ Config.presetSize)

/-- R52: at most 512 samples of every channel. -/
def State.ringsSound (s : State) : Bool := four.all fun i => decide ((s.hist.rings.get i).length ≤ Config.ringSize)

/-- R52, R54: the sample times of every active channel are the same and one sample period apart, the newest of them is
the newest instant, the next instant lies one period on, and an OFF channel has no sample; before sampling has begun
there is none at all. -/
def State.spacingSound (s : State) : Bool :=
  (four.all fun i =>
    let times := (s.hist.rings.get i).map Sample.time
    (s.active i || times.isEmpty) &&
      (!s.active i || times.getLast? == s.hist.newest) &&
      (four.all fun j => !(s.active i && s.active j) || times == (s.hist.rings.get j).map Sample.time) &&
      (times.zip times.tail).all fun p => p.2 == addTicks p.1 s.image.samplePeriod) &&
  (match s.hist.newest with
    | some t => s.hist.nextInstant == some (addTicks t s.image.samplePeriod)
    | none => true) &&
  (decide (s.released = true ∧ s.ctrl.lifecycle ≠ .loading) ||
    (s.hist.newest.isNone && four.all fun i => (s.hist.rings.get i).isEmpty))

/-- R80: the identities of the peer table ascend strictly, and none is 0 or the station's own. -/
def State.peersSound (s : State) : Bool :=
  decide ((s.time.peers.map fun p => p.ident.toNat).Pairwise (· < ·)) &&
    s.time.peers.all fun p => decide (p.ident ≠ 0 ∧ p.ident ≠ s.ctrl.identity)

/-- R92, R113, R123: the SYNC line, the FAULT line and the blocked flags stand as their conditions do. -/
def State.linesSound (s : State) : Bool :=
  (s.ctrl.syncLine == s.syncHolds) && (s.ctrl.faultLine == s.faultHolds) &&
    four.all fun i =>
      (s.trig.terms.get i).blocked == (s.image.terms.get i).condition.blocked s.chans

/-- R95, R104, R106, R107: a FAULT channel has a cause on A or B, and no other has one; a GOOD channel has no latched A
or B flag; a running timer means UNCONFIRMED; a cause that is present has its flag latched unless it is R's. -/
def Channel.sound (c : Channel) : Bool :=
  (decide (c.quality = .fault) == c.countCause) &&
    (decide (c.quality ≠ .good) || (!c.recA.latched && !c.recB.latched)) &&
    (c.timer.isNone || decide (c.quality = .unconfirmed))

/-- Every channel is sound. -/
def State.channelsSound (s : State) : Bool := four.all fun i => (s.chans.get i).sound

/-- R4, R32, R69: outside JOINED the capture table, the declined list, the cadence schedules and the preset list are
empty. -/
def State.restSound (s : State) : Bool :=
  s.joined ||
    (s.cap.table.isEmpty && s.cap.declined.isEmpty && s.cap.schedules.isEmpty && s.hist.presets.isEmpty)

/-- R172, R173: in LISTENING and JOINED the supply monitor reads NORMAL. -/
def State.monitorSound (s : State) : Bool :=
  match s.ctrl.lifecycle with
  | .listening | .joined => decide (s.ctrl.monitor = .normal)
  | .loading | .halted | .leaving | .withdrawn | .muted => true

/-- R129: a strobe is high exactly while a pulse end is present. -/
def State.strobesSound (s : State) : Bool :=
  (s.cap.strobe0.high == s.cap.strobe0.pulseEnd.isSome) && (s.cap.strobe1.high == s.cap.strobe1.pulseEnd.isSome)

/-- R163, R170: while a reset hold stands the state is LOADING; the listen timer runs exactly in LISTENING; in HALTED, and
only there, a halt reason is kept. -/
def State.controllerSound (s : State) : Bool :=
  (s.released || decide (s.ctrl.lifecycle = .loading)) &&
    (s.ctrl.listenTimer.isSome == decide (s.ctrl.lifecycle = .listening)) &&
    (s.ctrl.haltReason.isSome == decide (s.ctrl.lifecycle = .halted))

/-- The frames the link unit holds: the one in flight and those of the queue (R142). -/
def LinkUnit.frames (l : LinkUnit) : List QFrame := (l.flight.map Flight.frame).toList ++ l.queue

/-- R6: the entries are told apart by uids that have been given out. -/
def State.uidsSound (s : State) : Bool :=
  decide (s.cap.table.map Entry.uid).Nodup && s.cap.table.all fun e => decide (e.uid < s.cap.nextUid)

/-- R142: the frames not in flight stand in order of class and age, and every frame has an age of its own that has been
given out. -/
def State.queueOrdered (s : State) : Bool :=
  decide (s.link.queue.Pairwise fun f g => f.before g) && decide (s.link.frames.map QFrame.age).Nodup &&
    s.link.frames.all fun f => decide (f.age < s.link.nextAge)

/-- The reply-list entries that frames belong to. -/
def QFrame.replyId? (f : QFrame) : Option Nat :=
  match f.owner with
  | .reply id => some id
  | .entry _ | .declined _ | .time | .controller => none

/-- R151: the reply list holds one entry for each REPLY that has no outcome yet. -/
def State.repliesSound (s : State) : Bool :=
  decide ((s.req.replies.map ReplyEntry.id).Perm (s.link.frames.filterMap QFrame.replyId?)) &&
    decide (s.req.replies.map ReplyEntry.id).Nodup && s.req.replies.all fun r => decide (r.id < s.req.nextId)

/-- R10: the declined list holds no tag twice, and a declined REPORT without an outcome for each of its tags. -/
def State.declinedSound (s : State) : Bool :=
  decide s.cap.declined.Nodup &&
    s.cap.declined.all fun tag => s.link.frames.any fun f => decide (f.owner = .declined tag)

/-- R174: the station controller has a frame with no outcome only in LEAVING, or in MUTED after it, and then one. -/
def State.leaveSound (s : State) : Bool :=
  decide ((s.link.frames.filter fun f => decide (f.owner = .controller)).length ≤
    match s.ctrl.lifecycle with
    | .leaving | .muted => 1
    | .loading | .halted | .listening | .joined | .withdrawn => 0)

/-- R40, R41: no identity is both a responder and a decliner of one capture. -/
def State.answersSound (s : State) : Bool :=
  s.cap.table.all fun e =>
    match e.origin with
    | some o => decide (o.responders &&& o.decliners = 0)
    | none => true

/-- The class 0 frames held for an entry. -/
def State.urgentFrames (s : State) (uid : Nat) : List QFrame :=
  s.link.frames.filter fun f => decide (f.owner = .entry uid) && decide (f.content.cls = 0)

/-- R28: in CALLING an origin part has exactly one class 0 frame of its own, a CALL; in CLOSING exactly one, a CLOSE; in
COLLECTING none; and a member-only entry has none. -/
def State.originFrames (s : State) (e : Entry) : Bool :=
  match e.origin.map Origin.state, s.urgentFrames e.uid with
  | some .calling, [f] => f.content.isCall
  | some .closing, [f] =>
    match f.content with
    | .close _ => true
    | .call _ | .report _ | .leave _ | .beacon _ | .reply _ _ => false
  | some .collecting, [] => true
  | none, [] => true
  | _, _ => false

/-- R6, R28, R149: every entry has the class 0 frames of its origin part, a frame that a change out of JOINED left to
finish belongs to no entry still held, and no frame names an entry that is yet to come. -/
def State.ownersSound (s : State) : Bool :=
  (s.cap.table.all fun e => s.originFrames e) &&
    (s.link.frames.all fun f =>
      match f.owner with
      | .entry uid => decide (uid < s.cap.nextUid)
      | .declined _ | .time | .reply _ | .controller => true) &&
    match s.link.flight with
    | some fl => !fl.finishing || s.cap.table.all fun e => decide (fl.frame.owner ≠ .entry e.uid)
    | none => true

/-- R26, R49, R69, R93, R95, R119, R129, R150, R151: every block but the station controller is at its reset values. -/
def State.blocksAtReset (s : State) : Bool :=
  decide (s.image = Image.blank ∧ s.time = TimeUnit.reset ∧ s.chans = Four.all Channel.reset ∧ s.hist = History.reset ∧
    s.trig = Trigger.reset ∧ s.cap = Capture.reset ∧ s.link = LinkUnit.reset ∧ s.req = RequestUnit.reset)

/-- R163: while a reset hold stands every block is at its reset values, and the station controller keeps the hold and
the reset cause alone. -/
def State.holdSound (s : State) : Bool :=
  match s.ctrl.hold with
  | none => true
  | some h => s.blocksAtReset && decide (s.ctrl = Controller.held h s.ctrl.resetCause)

/-- Every check together. -/
def State.sound (s : State) : Bool :=
  s.tableSound && s.queueSound && s.receiverSound && s.presetsSound && s.ringsSound && s.spacingSound && s.peersSound &&
    s.linesSound && s.channelsSound && s.restSound && s.monitorSound && s.strobesSound && s.controllerSound && s.uidsSound && s.queueOrdered &&
    s.repliesSound && s.declinedSound && s.leaveSound && s.answersSound && s.ownersSound && s.holdSound

/-! ### Frames the formats can carry (R178 to R183) -/

/-- R179: a station tag names an identity from 1 to 31. -/
def tagEncodable : Tag → Bool
  | .station i _ => decide (i ≠ 0)
  | .cadence _ _ => true

/-- R182: the offsets of a channel entry lie within the longest sample period. -/
def ChannelEntry.encodable (e : ChannelEntry) : Bool :=
  match e.reading with
  | .stale => true
  | .sampled _ b none => beforeOffsetOk b.offset
  | .sampled _ b (some a) => beforeOffsetOk b.offset && afterOffsetOk a.offset

/-- R183: the counts of a snapshot lie within their encodings. -/
def Snapshot.encodable (s : Snapshot) : Bool :=
  decide (s.admitted ≤ 30 ∧ s.suspect ≤ 30 ∧ s.heard ≤ 30 ∧ s.tableEntries ≤ 16 ∧ s.originEntries ≤ 4 ∧
    1 ≤ s.queueFrames ∧ s.queueFrames ≤ 12 ∧ s.presets ≤ 4)

/-- R180 to R183: the body has no value its format calls ill-formed. -/
def Body.encodable : Body → Bool
  | .beacon _ | .leave _ | .preset _ => true
  | .call f => tagEncodable f.tag
  | .report f => tagEncodable f.tag && f.consistent && f.entries.all ChannelEntry.encodable
  | .close f =>
    tagEncodable f.tag && f.consistent && !f.responders.getLsbD 0 && !f.decliners.getLsbD 0 && !f.missing.getLsbD 0
  | .request f => decide (f.target ≠ 0)
  | .reply f => decide (f.requester ≠ 0) && f.snapshot.encodable

/-- R178: the frame can stand on the bus as a well-formed frame. -/
def Frame.encodable (f : Frame) : Bool := decide (f.sender ≠ 0) && f.body.encodable

/-- The row of the table that takes a frame, with the bytes it came as and, for a BEACON, its start edge. -/
def Frame.command (f : Frame) (dt : Lapse) (bytes : List Byte) (edge : Time) : Instr :=
  match f.body with
  | .beacon _ => .beaconArrival dt bytes edge
  | .leave _ => .leaveArrival dt bytes
  | .call _ => .callArrival dt bytes
  | .report _ => .reportArrival dt bytes
  | .close _ => .closeArrival dt bytes
  | .preset _ => .presetArrival dt bytes
  | .request r =>
    match r.read with
    | .status => .statusRequest dt bytes
    | .arm _ => .termControlArm dt bytes
    | .disarm _ => .termControlDisarm dt bytes
    | .faultAck _ => .faultAck dt bytes
    | .unknown => .unknownRequest dt bytes
  | .reply _ => .replyArrival dt bytes

/-! ### Runs -/

/-- The commands of a list taken one after the other, up to the first that does not answer a next state. -/
def runAll : List Instr → State → Host.Outcome State Fault Refusal
  | [], s => .next s
  | c :: rest, s =>
    match exec c s with
    | .next t => runAll rest t
    | .fault r => .fault r
    | .refused r => .refused r

end Sys2Proof.Machine
end

