-- ==== Sys2Proof/Certificates/Slice0/Obligations.lean ====
section
/-!
DEFINITION. The statements for the provers: what the commands of the TQ-4 do, what they leave alone, which invariants
every step keeps, and that the frame formats encode and decode one way only. Where a statement gives the whole next state
it is written as the state after the elapsed time with the fields the command changes, followed by `State.settle`, whose
effect `Obligations.FlagsFollowEveryCommand` states. Where a statement asks that local time has reached or passed a time,
by `later … = false`, a time exactly 2^47 ticks from local time counts as reached: the model's choice, assumption 33.
-/

open Sys2Proof Sys2Proof.Machine

/-! ### The machine as a whole -/

/-- A command at the front of the queue is the step, run on the state with the queue's rest; with no command waiting, an
event of the part's own that is due is taken, and else one tick passes (the model's choice, assumption 3). -/
def Obligations.StepTakesFrontOrIdles : Prop :=
  (∀ (c : Instr) (rest : List Instr) (s : State), s.pending = c :: rest → step s = exec c { s with pending := rest }) ∧
  (∀ s : State, s.pending = [] → s.dueEvents = [] → step s = .next (s.elapse ⟨1, []⟩)) ∧
  (∀ (c : Instr) (rest : List Instr) (s : State), s.pending = [] → s.dueEvents = c :: rest → step s = exec c s)

/-- No command faults or is refused in any state, also where its event cannot be taken, and none touches the queue of
waiting commands: the model's choice and inference, assumptions 1 (DESIGN CHOICE) and 7 (DEDUCED). -/
def Obligations.EveryCommandCompletes : Prop :=
  ∀ (c : Instr) (s : State), ∃ t, exec c s = .next t ∧ t.pending = s.pending

/-- R92, R113, R123: after every command, from any state whatever, the SYNC line, the FAULT line and the blocked flag of
every term stand as their conditions do. -/
def Obligations.FlagsFollowEveryCommand : Prop :=
  ∀ (c : Instr) (s t : State), exec c s = .next t →
    (t.ctrl.syncLine = true ↔ t.ctrl.lifecycle = .joined ∧ t.time.state = .locked) ∧
    (t.ctrl.faultLine = true ↔
      (∃ i : Chan, t.image.modes.get i ≠ .off ∧
        ((t.chans.get i).quality = .fault ∨ (t.chans.get i).recA.latched = true ∨ (t.chans.get i).recB.latched = true ∨
          (t.chans.get i).recR.latched = true)) ∨
      t.ctrl.lifecycle = .halted ∨ t.ctrl.lifecycle = .muted) ∧
    ∀ k : TermNo, (t.trig.terms.get k).blocked = true ↔
      match (t.image.terms.get k).condition with
      | .none => False
      | .cross chan _ _ => (t.chans.get chan).quality = .fault
      | .pattern signals _ => ∃ i : Chan,
          (signals.getLsbD (15 - 3 * i.val) = true ∧
            ((t.chans.get i).recA.cause = true ∨ (t.chans.get i).recA.latched = true)) ∨
          (signals.getLsbD (14 - 3 * i.val) = true ∧
            ((t.chans.get i).recB.cause = true ∨ (t.chans.get i).recB.latched = true)) ∨
          (signals.getLsbD (13 - 3 * i.val) = true ∧
            ((t.chans.get i).recR.cause = true ∨ (t.chans.get i).recR.latched = true))

/-- R70, R50: local time counts the ticks that pass and is set by nothing else: it stands during a reset hold and is 0 at
the beginning of a hold and at the release. The place in the series of sample instants, the model's count of the ticks
since the release modulo 1,000 (assumption 30), goes on with it through a wrap. -/
def Obligations.LocalTimeOnlyCounts : Prop :=
  ∀ (c : Instr) (s t : State), exec c s = .next t →
    match c, s.ctrl.hold with
    | .powerOnReset _, none | .supplyLowReset _, none | .pinReset _, none =>
      t.time.localTime = 0 ∧ t.time.phase = 0
    | .resetRelease _ _ _, some _ => t.time.localTime = 0 ∧ t.time.phase = 0
    | _, some _ => t.time.localTime = s.time.localTime ∧ t.time.phase = s.time.phase
    | _, none => t.time.localTime.toNat = (s.time.localTime.toNat + c.elapsed.ticks) % 2 ^ 48 ∧
      t.time.phase = (s.time.phase + c.elapsed.ticks) % 1000

/-- R71: the correction changes only where a beacon slot is taken or the listen timer expires, and at a reset. -/
def Obligations.CorrectionChangesOnlyAtRounds : Prop :=
  ∀ (c : Instr) (s t : State), exec c s = .next t → t.time.correction ≠ s.time.correction →
    (∃ dt, c = .beaconSlot dt) ∨ (∃ dt, c = .listenTimerExpiry dt) ∨
    ((∃ dt, c = .powerOnReset dt ∨ c = .supplyLowReset dt ∨ c = .pinReset dt) ∧ s.ctrl.hold = none)

/-! ### Resets and loading -/

/-- The values the spec gives for reset, block by block, hold of `State.reset`, and `State.reset` is sound. -/
def Obligations.ResetValues : Prop :=
  State.reset.sound = true ∧ State.reset.blocksAtReset = true ∧
  State.reset.time.localTime = 0 ∧ State.reset.time.correction = 0 ∧ State.reset.time.state = .free ∧
  State.reset.time.peers = [] ∧ State.reset.time.nextSlot = none ∧
  (∀ i : Chan, (State.reset.chans.get i).count = 0 ∧ (State.reset.chans.get i).epoch = 0 ∧
    (State.reset.chans.get i).quality = .unconfirmed ∧ (State.reset.chans.get i).timer = none ∧
    (State.reset.chans.get i).anyLatched = false ∧ State.reset.hist.rings.get i = []) ∧
  State.reset.hist.presets = [] ∧ State.reset.hist.touched = 0 ∧ State.reset.trig.levels = 0 ∧
  (∀ k : TermNo, State.reset.trig.terms.get k = ⟨.disarmed, false, false, false⟩) ∧
  State.reset.cap.table = [] ∧ State.reset.cap.declined = [] ∧ State.reset.cap.sequence = 0 ∧
  State.reset.cap.schedules = [] ∧ State.reset.cap.strobe0 = ⟨false, none⟩ ∧ State.reset.cap.strobe1 = ⟨false, none⟩ ∧
  State.reset.link.queue = [] ∧ State.reset.link.flight = none ∧ State.reset.link.discards = 0 ∧
  State.reset.link.state = .active ∧ State.reset.link.idleCount = none ∧ State.reset.link.mark = none ∧
  State.reset.req.refusal = ⟨.none, 0, 0⟩ ∧ State.reset.req.replies = [] ∧ State.reset.req.quietMark = false ∧
  State.reset.ctrl.syncLine = false ∧ State.reset.ctrl.faultLine = false

/-- R163: out of reset each of the three resets begins a hold of its kind and puts every block at its reset values, the
outside's pins and the reset cause apart; within a hold each of them, and each further condition, extends the hold and
changes nothing else. -/
def Obligations.ResetsBeginOrExtendHold : Prop :=
  ∀ (dt : Lapse) (s : State),
    (s.ctrl.hold = none →
      ∀ p ∈ [(Instr.powerOnReset dt, ResetKind.powerOn), (Instr.supplyLowReset dt, ResetKind.supplyLow),
        (Instr.pinReset dt, ResetKind.pin)],
      ∃ t, exec p.1 s = .next t ∧ t.blocksAtReset = true ∧ t.ctrl.hold = some ⟨p.2, false, false⟩ ∧
        t.ctrl.resetCause = s.ctrl.resetCause ∧ t.ctrl.syncLine = false ∧ t.ctrl.faultLine = false ∧ t.pins = s.pins ∧
        t.pending = s.pending) ∧
    (∀ h, s.ctrl.hold = some h → s.holdSound = true →
      ∀ p ∈ [(Instr.powerOnReset dt, (⟨h.begun, true, true⟩ : Hold)), (.supplyLowReset dt, ⟨h.begun, true, h.below150⟩),
        (.pinReset dt, h), (.furtherResetCondition dt .below150, ⟨h.begun, true, true⟩),
        (.furtherResetCondition dt .below270, ⟨h.begun, true, h.below150⟩), (.furtherResetCondition dt .nrstLow, h)],
      exec p.1 s = .next { s with ctrl := { s.ctrl with hold := some p.2 } })

/-- R163: the reset cause recorded at the release, by how the hold began and what came during it, for every list of further
conditions. -/
def Obligations.ResetCauseRecorded : Prop :=
  ∀ (dt dt' : Lapse) (s : State) (conditions : List (Lapse × ResetCondition)) (straps : Ident) (normal : Bool),
    s.ctrl.hold = none →
    ∀ p ∈ [(Instr.powerOnReset dt, ResetKind.powerOn), (Instr.supplyLowReset dt, ResetKind.supplyLow),
      (Instr.pinReset dt, ResetKind.pin)],
    ∃ t, runAll (p.1 :: conditions.map (fun x => Instr.furtherResetCondition x.1 x.2) ++ [.resetRelease dt' straps normal])
        s = .next t ∧
      t.ctrl.hold = none ∧
      t.ctrl.resetCause =
        if p.2 = .powerOn ∨ .below150 ∈ conditions.map Prod.snd then .power
        else if p.2 = .supplyLow ∨ .below270 ∈ conditions.map Prod.snd then .supply
        else .pin

/-- R164, R165: the release leaves the station controller as R164 lists with the straps read, halts a station of
identity 0 with ID-ZERO, and leaves every other block at its reset values. -/
def Obligations.ReleaseEntersLoading : Prop :=
  ∀ (dt : Lapse) (straps : Ident) (normal : Bool) (s : State) (h : Hold), s.ctrl.hold = some h → s.holdSound = true →
    ∃ t, exec (.resetRelease dt straps normal) s = .next t ∧ t.blocksAtReset = true ∧ t.ctrl.hold = none ∧
      t.ctrl.lifecycle = (if straps = 0 then .halted else .loading) ∧
      t.ctrl.haltReason = (if straps = 0 then some .idZero else none) ∧
      t.ctrl.faultLine = decide (straps = 0) ∧ t.ctrl.syncLine = false ∧ t.ctrl.listenTimer = none ∧
      t.ctrl.readFailures = 0 ∧ t.ctrl.monitor = (if normal then .normal else .warning) ∧ t.ctrl.identity = straps ∧
      t.pins = s.pins ∧ t.pending = s.pending

/-- R163: a reset hold, while it stands, keeps every block at its reset values, whatever commands come, until the
release; every step keeps it so. That the supply monitor reads NORMAL in a hold is the model's choice, assumption 4 (DESIGN
CHOICE). -/
def Obligations.HoldKeepsResetValues : Prop :=
  ∀ s t : State, s.holdSound = true → step s = .next t → t.holdSound = true

/-- R166, R167: in LOADING a failed or cut-short read counts, and the third halts the station with NO-MEMORY; a completed
read whose CRC differs halts it with CHECK, and one whose fields are out of range with RANGE. -/
def Obligations.ReadOutcomesHalt : Prop :=
  ∀ (dt : Lapse) (s : State), s.ctrl.hold = none → s.ctrl.lifecycle = .loading →
    (∀ image : Option (List Byte), (∀ bytes, image = some bytes → bytes.length < 103) →
      exec (.configReadAttempt dt image) s = .next (State.settle { s.elapse dt with
        ctrl :=
          if s.ctrl.readFailures < 2 then { s.ctrl with readFailures := s.ctrl.readFailures + 1 }
          else { s.ctrl with
            readFailures := s.ctrl.readFailures + 1, lifecycle := .halted, haltReason := some .noMemory } })) ∧
    (∀ bytes : List Byte, bytes.length = 103 →
      (bytes2 (crc16 (bytes.take 101)) ≠ bytes.drop 101 →
        exec (.configReadAttempt dt (some bytes)) s = .next (State.settle { s.elapse dt with
          ctrl := { s.ctrl with lifecycle := .halted, haltReason := some .check } })) ∧
      (bytes2 (crc16 (bytes.take 101)) = bytes.drop 101 → Image.ofBytes bytes = none →
        exec (.configReadAttempt dt (some bytes)) s = .next (State.settle { s.elapse dt with
          ctrl := { s.ctrl with lifecycle := .halted, haltReason := some .range } })))

/-- R170: an accepted image starts the blocks: the image is taken, the listen timer runs for 150 ms (a monitor at WARNING
is taken as a warning at once), every active channel starts from its reset values with the causes present latched (R114),
the signals and inputs take their levels (R118), the slot series begins, and the receiver begins with an idle count of 0.
Sampling begins (R50, R53) with the first instant, a multiple of the period in ticks since the release, that is not
earlier than the change, or later than it where an instant at the change has passed, as assumption 19 notes it. -/
def Obligations.AcceptedImageStartsListening : Prop :=
  ∀ (dt : Lapse) (s : State) (bytes : List Byte) (image : Image), s.ctrl.hold = none → s.ctrl.lifecycle = .loading →
    bytes.length = 103 → bytes2 (crc16 (bytes.take 101)) = bytes.drop 101 → Image.ofBytes bytes = some image →
    ∃ (t : State) (first : Time), exec (.configReadAttempt dt (some bytes)) s = .next t ∧
      t.image = image ∧ t.time.localTime = (s.elapse dt).time.localTime ∧
      t.ctrl.lifecycle = (if s.ctrl.monitor = .normal then .listening else .withdrawn) ∧
      t.ctrl.listenTimer =
        (if s.ctrl.monitor = .normal then some ((s.elapse dt).time.localTime + 1500000) else none) ∧
      t.ctrl.monitor = s.ctrl.monitor ∧ t.ctrl.identity = s.ctrl.identity ∧ t.ctrl.resetCause = s.ctrl.resetCause ∧
      t.ctrl.hold = none ∧ t.ctrl.haltReason = s.ctrl.haltReason ∧ t.ctrl.readFailures = s.ctrl.readFailures ∧
      (∀ i : Chan, image.modes.get i = .off → t.chans.get i = Channel.reset) ∧
      (∀ i : Chan, image.modes.get i ≠ .off →
        (t.chans.get i).count = 0 ∧ (t.chans.get i).epoch = 0 ∧ (t.chans.get i).timer = none ∧
        (t.chans.get i).lastA = (s.pins.levels.get i).a ∧ (t.chans.get i).lastB = (s.pins.levels.get i).b ∧
        (∀ n : Line, ((t.chans.get i).record n).cause = ((image.monitors.get i).get n && (s.pins.causes.get i).get n) ∧
          ((t.chans.get i).record n).latched = ((image.monitors.get i).get n && (s.pins.causes.get i).get n)) ∧
        (t.chans.get i).quality =
          (if ((t.chans.get i).recA.cause || (t.chans.get i).recB.cause) then .fault else .unconfirmed) ∧
        (t.trig.chans.get i).lines = s.pins.levels.get i ∧ (t.trig.chans.get i).a.stamp = t.time.localTime ∧
        (t.trig.chans.get i).b.stamp = t.time.localTime ∧ (t.trig.chans.get i).r.stamp = t.time.localTime) ∧
      (∀ i : InputNo, t.trig.inputs.get i = ⟨s.pins.inputs.get i, t.time.localTime⟩ ∧ t.trig.filters.get i = []) ∧
      (∀ k : TermNo, (t.trig.terms.get k).state = (s.trig.terms.get k).state ∧
        (t.trig.terms.get k).fireLost = (s.trig.terms.get k).fireLost) ∧
      t.hist = { s.hist with nextInstant := some first } ∧
      (let ahead := (first - t.time.localTime).toNat
      (t.time.phase + ahead) % image.samplePeriod = 0 ∧
      if s.hist.passed = some t.time.localTime then 1 ≤ ahead ∧ ahead ≤ image.samplePeriod
      else ahead < image.samplePeriod) ∧
      t.time = { (s.elapse dt).time with nextSlot := some (firstSlot s.ctrl.identity t.netTime) } ∧
      t.link = { s.link with idleCount := some 0, receiver := .waiting } ∧ t.cap = s.cap ∧ t.req = s.req ∧
      t.pins = s.pins ∧ t.pending = s.pending

/-- R168, R184: an image passes the range checks exactly where every field that is checked holds a value listed for it,
every declared group has a non-empty map of active channels and a period that is 0 or longer than the lead, and every term
that is not NONE names a declared group and live signals or a live channel; its fields are read from the bytes R184 gives
them; and the image that comes of it has the ranges. -/
def Obligations.AcceptedImageInRange : Prop :=
  (∀ bytes : List Byte,
    let b (n : Nat) : Nat := (bytes.getD n 0).toNat
    let w (n : Nat) : Nat := b n * 256 + b (n + 1)
    let mode (i : Nat) : Nat := b 1 / 4 ^ (3 - i) % 4
    let map (g : Nat) : Nat := if g % 2 = 0 then b (8 + g / 2) / 16 else b (8 + g / 2) % 16
    (Image.ofBytes bytes).isSome = true ↔
      b 0 ≤ 3 ∧ (∀ i : Chan, mode i.val ≤ 2) ∧ w 4 ≤ 60000 ∧ (1 ≤ b 28 ∧ b 28 ≤ 50) ∧ (1 ≤ b 29 ∧ b 29 ≤ 50) ∧
      b 30 ≤ 63 ∧ (∀ n ∈ [95, 98], (b n ≤ 7 ∨ b n = 255) ∧ 1 ≤ w (n + 1) ∧ w (n + 1) ≤ 1000) ∧
      (∀ g : Group, (b 7).testBit g.val = true →
        map g.val ≠ 0 ∧ (∀ i : Chan, (map g.val).testBit i.val = true → mode i.val ≠ 0) ∧
        w (12 + 2 * g.val) ≤ 60000 ∧ (w (12 + 2 * g.val) = 0 ∨ b 28 < w (12 + 2 * g.val))) ∧
      ∀ n ∈ [31, 47, 63, 79], b n = 0 ∨
        (b (n + 1) ≤ 7 ∧ (b 7).testBit (b (n + 1)) = true ∧ b (n + 2) ≤ 1 ∧ b (n + 3) ≤ 1 ∧
          ((b n = 1 ∧ w (n + 6) ≠ 0 ∧ ∀ i : Chan, mode i.val = 0 → w (n + 6) / 2 ^ (13 - 3 * i.val) % 8 = 0) ∨
            (b n = 2 ∧ b (n + 10) ≤ 3 ∧ mode (b (n + 10)) ≠ 0 ∧ b (n + 11) ≤ 2)))) ∧
  (∀ (bytes : List Byte) (im : Image), Image.ofBytes bytes = some im →
    let b (n : Nat) : Nat := (bytes.getD n 0).toNat
    let w (n : Nat) : Nat := b n * 256 + b (n + 1)
    im.samplePeriod = [100, 200, 500, 1000].getD (b 0) 0 ∧ im.quietTime = w 4 ∧ im.declared = bytes.getD 7 0 ∧
    im.cadenceLead = b 28 ∧ im.collectWindow = b 29 ∧ im.busDelay = b 30 ∧
    (∀ i : Chan,
      im.modes.get i = [ChannelMode.off, .quad4, .pulseDir].getD (b 1 / 4 ^ (3 - i.val) % 4) .off ∧
      im.monitors.get i =
        ⟨(w 2).testBit (15 - 3 * i.val), (w 2).testBit (14 - 3 * i.val), (w 2).testBit (13 - 3 * i.val)⟩ ∧
      im.filters.get i = [0, 10, 100, 1000].getD (b 6 / 4 ^ (3 - i.val) % 4) 0) ∧
    (∀ g : Group, im.groups[g].map.toNat = (if g.val % 2 = 0 then b (8 + g.val / 2) / 16 else b (8 + g.val / 2) % 16) ∧
      im.groups[g].period = w (12 + 2 * g.val)) ∧
    (∀ x ∈ [(95, im.strobe0), (98, im.strobe1)], x.2.width = w (x.1 + 1) ∧
      x.2.group.map Fin.val = if b x.1 = 255 then none else some (b x.1)) ∧
    ∀ k : TermNo,
      let n := 31 + 16 * k.val
      let term := im.terms.get k
      (b n = 0 → term.condition = .none) ∧
      (b n ≠ 0 →
        term.group.val = b (n + 1) ∧ term.mode = (if b (n + 2) = 0 then .single else .continuous) ∧
        (term.armedAtJoin = true ↔ b (n + 3) = 1) ∧ term.holdoff = w (n + 4)) ∧
      (b n = 1 → ∃ signals levels : BitVec 16, term.condition = .pattern signals levels ∧ signals.toNat = w (n + 6) ∧
        levels.toNat = w (n + 8)) ∧
      (b n = 2 → ∃ (chan : Chan) (threshold : Count),
        term.condition = .cross chan ([Direction.up, .down, .either].getD (b (n + 11)) .up) threshold ∧
        chan.val = b (n + 10) ∧ threshold.toNat = w (n + 12) * 65536 + w (n + 14))) ∧
  ∀ (bytes : List Byte) (im : Image), Image.ofBytes bytes = some im →
    im.samplePeriod ∈ [100, 200, 500, 1000] ∧ im.quietTime ≤ 60000 ∧ (1 ≤ im.cadenceLead ∧ im.cadenceLead ≤ 50) ∧
    (1 ≤ im.collectWindow ∧ im.collectWindow ≤ 50) ∧ im.busDelay ≤ 63 ∧
    (∀ i : InputNo, im.filters.get i ∈ [0, 10, 100, 1000]) ∧
    (∀ w ∈ [im.strobe0.width, im.strobe1.width], 1 ≤ w ∧ w ≤ 1000) ∧
    (∀ g : Group, im.declared.getLsbD g.val = true →
      im.groups[g].map ≠ 0 ∧ (∀ i : Chan, im.groups[g].map.getLsbD i.val = true → im.modes.get i ≠ .off) ∧
      im.groups[g].period ≤ 60000 ∧ (im.groups[g].period = 0 ∨ im.cadenceLead < im.groups[g].period)) ∧
    ∀ k : TermNo,
      (im.terms.get k).holdoff ≤ 65535 ∧
      ((im.terms.get k).condition ≠ .none → im.declared.getLsbD (im.terms.get k).group.val = true) ∧
      match (im.terms.get k).condition with
      | .none => True
      | .pattern signals _ => signals ≠ 0 ∧ ∀ i : Chan, im.modes.get i = .off →
          signals.getLsbD (15 - 3 * i.val) = false ∧ signals.getLsbD (14 - 3 * i.val) = false ∧
          signals.getLsbD (13 - 3 * i.val) = false
      | .cross chan _ _ => im.modes.get chan ≠ .off

/-! ### Lifecycle -/

/-- R171, R91, R32, R124: the expiry of the listen timer in LISTENING joins the station. With an ADMITTED peer the
correction moves by the midpoint of the offsets of those ADMITTED peers that announced LOCKING or LOCKED, or of all of them
where none did, without the station's 0, and the time state is LOCKING, else the time state is FREE; each declared
group with a period gets the least index whose instant lies beyond the lead; every used term is armed or disarmed with its
ready mark as its condition stands; and nothing else changes. -/
def Obligations.JoinTakesEntryStep : Prop :=
  ∀ (dt : Lapse) (s : State) (expiry : Time), s.ctrl.hold = none → s.ctrl.lifecycle = .listening →
    s.ctrl.listenTimer = some expiry → later expiry (s.elapse dt).time.localTime = false →
    s.restSound = true → s.linesSound = true →
    ∃ (t : State) (delta : Time), exec (.listenTimerExpiry dt) s = .next t ∧
      (¬ (∃ p ∈ s.time.peers, p.state = .admitted) → delta = 0) ∧
      (let admitted := s.time.peers.filter fun p => decide (p.state = .admitted)
      let used := if ∃ p ∈ admitted, p.timeState ≠ .free then admitted.filter fun p => decide (p.timeState ≠ .free)
        else admitted
      ∀ S : List Int, S.Pairwise (· ≤ ·) → S.Perm (used.map fun p => p.offset.toInt) → S ≠ [] →
        delta = BitVec.ofInt 48
          (if 4 ≤ S.length then (S.getD 1 0 + S.getD (S.length - 2) 0).tdiv 2
          else (S.getD 0 0 + S.getD (S.length - 1) 0).tdiv 2)) ∧
      t.ctrl = { s.ctrl with lifecycle := .joined, listenTimer := none, syncLine := false } ∧
      t.time = { (s.elapse dt).time with
        correction := s.time.correction + delta
        state := if ∃ p ∈ s.time.peers, p.state = .admitted then .locking else .free
        peers := s.time.peers.map fun p => { p with offset := p.offset - delta }
        nextSlot := s.time.nextSlot.map fun slot =>
          if delta ≠ 0 ∧ later (slot - t.time.correction) t.time.localTime = false
          then firstSlot s.ctrl.identity t.netTime else slot } ∧
      (∀ g : Group, t.schedule? g =
        if s.image.declared.getLsbD g.val = true ∧ s.image.groups[g].period ≠ 0 then
          let p := s.image.groups[g].period * 10000
          let k := (t.netTime + BitVec.ofNat 48 (s.image.cadenceLead * 10000)).toNat / p + 1
          some ⟨g, if k * p < 2 ^ 48 then k else 0⟩
        else none) ∧
      (∀ k : TermNo, t.trig.terms.get k =
        if (s.image.terms.get k).condition = .none then s.trig.terms.get k
        else
          { s.trig.terms.get k with
            state := if (s.image.terms.get k).armedAtJoin then .armed else .disarmed
            ready := !(s.trig.terms.get k).blocked && (s.image.terms.get k).condition.readyNow s.trig.levels }) ∧
      t.trig = { s.trig with terms := t.trig.terms } ∧ t.cap = { s.cap with schedules := t.cap.schedules } ∧
      t.pins = s.pins ∧ t.image = s.image ∧ t.chans = s.chans ∧ t.hist = s.hist ∧
      t.link = (s.elapse dt).link ∧ t.req = s.req ∧ t.pending = s.pending

/-- R172, R173, R176: a warning or a clear sets the monitor in every lifecycle state, a warning in LISTENING withdraws the
station, a clear in WITHDRAWN begins to listen afresh for 150 ms, and nothing else changes; one that the monitor already
reads is not taken. -/
def Obligations.SupplyMonitorByState : Prop :=
  ∀ (dt : Lapse) (s : State), s.ctrl.hold = none →
    (s.ctrl.monitor = .warning → exec (.supplyWarning dt) s = .next (State.settle (s.elapse dt))) ∧
    (s.ctrl.monitor = .normal → exec (.supplyClear dt) s = .next (State.settle (s.elapse dt))) ∧
    (s.ctrl.monitor = .normal → s.ctrl.lifecycle ≠ .joined →
      exec (.supplyWarning dt) s = .next (State.settle { s.elapse dt with
        ctrl :=
          if s.ctrl.lifecycle = .listening then
            { s.ctrl with monitor := .warning, lifecycle := .withdrawn, listenTimer := none }
          else { s.ctrl with monitor := .warning } })) ∧
    (s.ctrl.monitor = .warning →
      exec (.supplyClear dt) s = .next (State.settle { s.elapse dt with
        ctrl :=
          if s.ctrl.lifecycle = .withdrawn then
            { s.ctrl with
              monitor := .normal, lifecycle := .listening
              listenTimer := some ((s.elapse dt).time.localTime + 1500000) }
          else { s.ctrl with monitor := .normal } }))

/-- R174, R27, R49, R69, R124, R149, R162: a warning in JOINED. The table, the declined list, the schedules and the presets
are emptied; every used term is disarmed; the fires whose CALL is in CALLING and not on the wire are lost; every frame not
on the wire is gone with its reply-list entry; one LEAVE with reason POWER waits; and the rest stays as it stands. -/
def Obligations.WarningLeavesJoined : Prop :=
  ∀ (dt : Lapse) (s : State), s.ctrl.hold = none → s.ctrl.monitor = .normal → s.ctrl.lifecycle = .joined →
    s.leaveSound = true → s.linesSound = true →
    ∃ t, exec (.supplyWarning dt) s = .next t ∧
      t.ctrl = { s.ctrl with lifecycle := .leaving, monitor := .warning, syncLine := false } ∧
      t.cap = { s.cap with table := [], declined := [], schedules := [] } ∧
      t.hist = { s.hist with presets := [], touched := 0 } ∧
      t.link = { (s.elapse dt).link with
        queue := [⟨.controller, .leave 1, s.link.nextAge, 0, false⟩]
        nextAge := s.link.nextAge + 1
        flight := match s.link.flight with
          | some fl => if fl.onWire then some { fl with finishing := true } else none
          | none => none } ∧
      (∀ k : TermNo,
        (t.trig.terms.get k).state =
          (if (s.image.terms.get k).condition = .none then (s.trig.terms.get k).state else .disarmed) ∧
        (t.trig.terms.get k).ready =
          (if (s.image.terms.get k).condition = .none then (s.trig.terms.get k).ready else false) ∧
        (t.trig.terms.get k).blocked = (s.trig.terms.get k).blocked ∧
        ((t.trig.terms.get k).fireLost = true ↔ (s.trig.terms.get k).fireLost = true ∨
          ∃ e ∈ s.cap.table, ∃ o, e.origin = some o ∧ o.state = .calling ∧ o.term = some k ∧
            s.link.callOnWire (.entry e.uid) = false)) ∧
      t.req = { s.req with replies := s.req.replies.filter fun r =>
        !(s.link.queue.any (fun f => f.replyId? == some r.id) ||
          match s.link.flight with
          | some fl => !fl.onWire && fl.frame.replyId? == some r.id
          | none => false) } ∧
      t.trig = { s.trig with terms := t.trig.terms } ∧ t.time = (s.elapse dt).time ∧ t.chans = s.chans ∧
      t.pins = s.pins ∧ t.image = s.image ∧ t.pending = s.pending

/-- R169, R177: HALTED and MUTED are left only by a reset. -/
def Obligations.HaltedAndMutedLeftOnlyByReset : Prop :=
  ∀ (c : Instr) (s t : State), exec c s = .next t → s.ctrl.hold = none →
    (s.ctrl.lifecycle = .halted ∨ s.ctrl.lifecycle = .muted) →
    (t.ctrl.lifecycle = s.ctrl.lifecycle ∧ t.ctrl.hold = none) ∨
    (∃ dt, c = .powerOnReset dt ∨ c = .supplyLowReset dt ∨ c = .pinReset dt)

/-- R140, R177: any well-formed frame that bears the station's own identity, of whatever kind, mutes the station. SYNC is
released and FAULT asserted; in JOINED and LEAVING the transmit queue is flushed; in JOINED the table and the presets are
emptied too, every used term is disarmed, the fires whose CALL is in CALLING are lost, and a flushed REPLY's reply-list entry
leaves; in LISTENING the timer is stopped; and in MUTED nothing changes. -/
def Obligations.IdentityConflictMutes : Prop :=
  ∀ (dt : Lapse) (bytes : List Byte) (edge : Time) (f : Frame) (s : State), Frame.decode bytes = some f →
    f.sender = s.ctrl.identity → (s.elapse dt).frameEnds bytes = some edge →
    ∃ t, exec (f.command dt bytes edge) s = .next t ∧ t.ctrl.lifecycle = .muted ∧ t.ctrl.syncLine = false ∧
      t.ctrl.faultLine = true ∧ t.time = (s.elapse dt).time ∧ t.chans = s.chans ∧ t.pins = s.pins ∧ t.image = s.image ∧
      t.hist.rings = s.hist.rings ∧ t.cap.sequence = s.cap.sequence ∧ t.pending = s.pending ∧
      (s.ctrl.lifecycle = .joined → s.linesSound = true →
        t.ctrl = { s.ctrl with lifecycle := .muted, syncLine := false, faultLine := true } ∧
        t.link = { (s.elapse dt).link with queue := [], flight := none, idleCount := some 0, receiver := .waiting } ∧
        t.cap = { s.cap with table := [], declined := [], schedules := [] } ∧
        t.hist = { s.hist with presets := [], touched := 0 } ∧
        (∀ k : TermNo,
          (t.trig.terms.get k).state =
            (if (s.image.terms.get k).condition = .none then (s.trig.terms.get k).state else .disarmed) ∧
          (t.trig.terms.get k).ready =
            (if (s.image.terms.get k).condition = .none then (s.trig.terms.get k).ready else false) ∧
          (t.trig.terms.get k).blocked = (s.trig.terms.get k).blocked ∧
          ((t.trig.terms.get k).fireLost = true ↔ (s.trig.terms.get k).fireLost = true ∨
            ∃ e ∈ s.cap.table, ∃ o, e.origin = some o ∧ o.state = .calling ∧ o.term = some k)) ∧
        t.trig = { s.trig with terms := t.trig.terms } ∧
        t.req = { s.req with replies := s.req.replies.filter fun r =>
          !(s.link.frames.any fun f => f.replyId? == some r.id) }) ∧
      (s.ctrl.lifecycle = .leaving → t.link.queue = [] ∧ t.link.flight = none ∧ t.hist = s.hist) ∧
      (s.ctrl.lifecycle = .listening ∨ s.ctrl.lifecycle = .withdrawn →
        t = State.settle { (s.elapse dt).endReception with
          ctrl := { s.ctrl with lifecycle := .muted, listenTimer := none } }) ∧
      (s.ctrl.lifecycle = .muted → t = State.settle (s.elapse dt).endReception)

/-- R4, R26, R69, R129, R163, R170, R172, R173: what every step keeps of the lifecycle: outside JOINED the capture unit and
the preset list rest; the listen timer runs exactly in LISTENING and a halt reason is kept exactly in HALTED; in LISTENING
and JOINED the monitor reads NORMAL; a strobe is high exactly while its pulse runs; and the station controller's LEAVE
stands only in LEAVING and MUTED. -/
def Obligations.LifecycleKept : Prop :=
  ∀ s t : State, step s = .next t →
    (s.restSound = true → t.restSound = true) ∧ (s.controllerSound = true → t.controllerSound = true) ∧
    (s.monitorSound = true → t.monitorSound = true) ∧ (s.strobesSound = true → t.strobesSound = true) ∧
    (s.leaveSound = true → s.holdSound = true → t.leaveSound = true)

/-! ### Frames and arrivals -/

/-- R178 to R183: a frame within its formats' ranges, encoded and decoded, is the same frame; every field of every kind
at every value. -/
def Obligations.FrameEncodingRoundTrips : Prop :=
  ∀ f : Frame, f.encodable = true → Frame.decode f.encode = some f

/-- R140, R178: bytes that decode are the encoding of the frame they decode to, which is within its formats' ranges: no
two byte strings mean one frame, and no ill-formed bytes are taken. -/
def Obligations.DecodedFrameIsItsEncoding : Prop :=
  ∀ (bytes : List Byte) (f : Frame), Frame.decode bytes = some f → f.encode = bytes ∧ f.encodable = true

/-- R139, R140: an arrival whose bytes fail a check is discarded: whatever row it is, the receiver waits for the bus to be
idle again and nothing else changes. A frame ends as its bytes where the blocks run, no own frame is on the wire, and local
time has reached its start edge and ten ticks for each byte. That an arrival changes nothing where no frame ends so, or
where a BEACON's stamp is not the start edge of the frame that ends, is the model's choice, assumptions 1, 11 and 13
(DESIGN CHOICE); that the idle count begins anew
at the end of a frame is its inference, assumption 36 (DEDUCED). -/
def Obligations.IllFormedFrameDiscarded : Prop :=
  (∀ (u : State) (bytes : List Byte) (edge : Time), u.frameEnds bytes = some edge ↔
    u.running = true ∧ u.link.receiver = .taking edge ∧ (∀ fl, u.link.flight = some fl → fl.onWire = false) ∧
      later (edge + BitVec.ofNat 48 (10 * bytes.length)) u.time.localTime = false) ∧
  ∀ (c : Instr) (bytes : List Byte) (s : State), c.frame? = some bytes →
    (∀ edge, (s.elapse c.elapsed).frameEnds bytes = some edge → (∀ stamp, c.stamp? = some stamp → stamp = edge) →
      Frame.decode bytes = none →
      exec c s = .next (State.settle { s.elapse c.elapsed with
        link := { (s.elapse c.elapsed).link with idleCount := some 0, receiver := .waiting } })) ∧
    ((s.elapse c.elapsed).frameEnds bytes = none ∨
        (∃ stamp, c.stamp? = some stamp ∧ (s.elapse c.elapsed).frameEnds bytes ≠ some stamp) →
      exec c s = .next (State.settle (s.elapse c.elapsed)))

/-- R78, R79, R81, R82: a BEACON from another station. The sender's entry takes the start edge of the frame as its
arrival stamp, the offset sample, the announced groups and time state and the fresh flag; its state and counts follow
whether it was unknown, SILENT, HEARD or trusted and whether the sample was accepted; every other entry and the rest of
the state stay. -/
def Obligations.BeaconUpdatesPeer : Prop :=
  ∀ (dt : Lapse) (bytes : List Byte) (edge : Time) (cls : BitVec 2) (sender : Ident) (b : BeaconFrame) (s : State),
    Frame.decode bytes = some ⟨cls, sender, .beacon b⟩ → sender ≠ s.ctrl.identity →
    (s.elapse dt).frameEnds bytes = some edge →
    ∃ (peers : List Peer) (p : Peer),
      exec (.beaconArrival dt bytes edge) s = .next (State.settle { s.elapse dt with
        time := { (s.elapse dt).time with peers := peers }
        link := { (s.elapse dt).link with idleCount := some 0, receiver := .waiting } }) ∧
      (∀ i : Ident, i ≠ sender →
        peers.find? (fun q => decide (q.ident = i)) = s.time.peers.find? (fun q => decide (q.ident = i))) ∧
      peers.find? (fun q => decide (q.ident = sender)) = some p ∧
      p.lastBeacon = edge ∧ p.offset = b.stamp + BitVec.ofNat 48 s.image.busDelay - (edge + s.time.correction) ∧
      p.fresh = true ∧ p.groups = b.groups ∧ p.timeState = b.timeState ∧
      (let accepted : Prop := p.offset.toInt.natAbs ≤ 200 ∨ ∀ q ∈ s.time.peers, q.state ≠ .admitted
      match s.time.peers.find? (fun q => decide (q.ident = sender)) with
      | none => p.state = .heard ∧ (accepted → p.accepted = 1) ∧ (¬ accepted → p.accepted = 0)
      | some old =>
        p.inLimit = old.inLimit ∧
        match old.state with
        | .silent => p.state = .heard ∧ (accepted → p.accepted = 1) ∧ (¬ accepted → p.accepted = 0)
        | .heard =>
          (accepted → p.accepted = old.accepted + 1 ∧ p.state = if 3 ≤ old.accepted + 1 then .admitted else .heard) ∧
          (¬ accepted → p.accepted = 0 ∧ p.state = .heard)
        | .admitted | .suspect => p.state = old.state ∧ p.accepted = old.accepted)

/-- R84, R141: a LEAVE from another station removes its sender's entry and no other, and a REPLY from another station
reaches no owner; beyond that only the receiver goes to wait. -/
def Obligations.LeaveAndReplyArrivals : Prop :=
  ∀ (dt : Lapse) (bytes : List Byte) (cls : BitVec 2) (sender : Ident) (s : State), sender ≠ s.ctrl.identity →
    ((s.elapse dt).frameEnds bytes).isSome = true →
    (∀ reason, Frame.decode bytes = some ⟨cls, sender, .leave reason⟩ →
      ∃ peers : List Peer,
        exec (.leaveArrival dt bytes) s = .next (State.settle { s.elapse dt with
          time := { (s.elapse dt).time with peers := peers }
          link := { (s.elapse dt).link with idleCount := some 0, receiver := .waiting } }) ∧
        peers.Sublist s.time.peers ∧
        ∀ i : Ident, peers.find? (fun q => decide (q.ident = i)) =
          if i = sender then none else s.time.peers.find? (fun q => decide (q.ident = i))) ∧
    (∀ reply, Frame.decode bytes = some ⟨cls, sender, .reply reply⟩ →
      exec (.replyArrival dt bytes) s = .next (State.settle { s.elapse dt with
        link := { (s.elapse dt).link with idleCount := some 0, receiver := .waiting } }))

/-- R7, R8, R10, R21, R22, R58, R152: what outside JOINED, or for an undeclared group, a disagreeing tag, a declined tag, a
duplicate, or another target, is ignored: such an arrival changes the receiver alone. -/
def Obligations.IgnoredArrivals : Prop :=
  ∀ (dt : Lapse) (bytes : List Byte) (edge : Time) (f : Frame) (s : State), Frame.decode bytes = some f →
    f.sender ≠ s.ctrl.identity → (s.elapse dt).frameEnds bytes = some edge → s.uidsSound = true →
    (match f.body with
      | .call b =>
        s.ctrl.lifecycle ≠ .joined ∨ s.image.declared.getLsbD b.group.val = false ∨
        (match b.tag with
          | .station _ _ => b.kind = .cadence
          | .cadence g _ => b.kind ≠ .cadence ∨ g ≠ b.group) ∨
        (∃ e, s.tagged? b.tag = some e ∧ ∀ o, e.origin = some o →
          o.state ≠ .calling ∨ s.link.callQueued (.entry e.uid) = false) ∨
        (s.tagged? b.tag = none ∧ b.tag ∈ s.cap.declined)
      | .report b =>
        s.ctrl.lifecycle ≠ .joined ∨ s.tagged? b.tag = none ∨
        ∃ e, s.tagged? b.tag = some e ∧ ∀ o, e.origin = some o →
          o.state = .calling ∨ o.begun = true ∨ hasIdent o.responders f.sender = true ∨
          hasIdent o.decliners f.sender = true
      | .close b =>
        s.ctrl.lifecycle ≠ .joined ∨ (s.tagged? b.tag = none ∧ b.tag ∉ s.cap.declined) ∨
        ∃ e o, s.tagged? b.tag = some e ∧ e.origin = some o ∧
          ((o.state = .calling ∧ s.link.callQueued (.entry e.uid) = false) ∨
            (o.state ≠ .calling ∧ s.ctrl.identity < f.sender))
      | .preset b =>
        s.ctrl.lifecycle ≠ .joined ∨ s.image.declared.getLsbD b.group.val = false ∨
        ∃ q ∈ s.hist.presets, q.group = b.group ∧ q.time = b.time
      | .request b => s.ctrl.lifecycle ≠ .joined ∨ b.target ≠ s.ctrl.identity
      | .beacon _ | .leave _ | .reply _ => False) →
    exec (f.command dt bytes edge) s = .next (State.settle { s.elapse dt with
      link := { (s.elapse dt).link with idleCount := some 0, receiver := .waiting } })

/-- R12, R14, R15: a CALL that passes R7 to R11 makes an entry at the end of the table, with the oldest freeable entry
freed from a full one. Where the newest sample is later than the capture's local instant the entry is resolved at once and
its REPORT queued at class 1, here with room for it; else it waits. That the retention end counts from the network time
where the capture time lies 2^47 ticks from it is the model's choice, assumption 33 (DESIGN CHOICE). -/
def Obligations.CallMakesEntry : Prop :=
  ∀ (dt : Lapse) (bytes : List Byte) (cls : BitVec 2) (sender : Ident) (b : CallFrame) (s : State),
    Frame.decode bytes = some ⟨cls, sender, .call b⟩ → sender ≠ s.ctrl.identity →
    ((s.elapse dt).frameEnds bytes).isSome = true →
    s.ctrl.lifecycle = .joined → b.agrees = true → s.image.declared.getLsbD b.group.val = true →
    s.tagged? b.tag = none → b.tag ∉ s.cap.declined →
    timeDiff b.time (s.elapse dt).netTime ≤ 1000000 → s.cap.table.length ≤ 16 → s.uidsSound = true →
    (s.cap.table.length = 16 → (s.cap.table.find? Entry.freeable).isSome = true) →
    s.link.count < 12 →
    let instant := b.time - s.time.correction
    let answered : Bool := match s.hist.newest with
      | some newest => later newest instant
      | none => false
    ∃ (kept : List Entry) (queue : List QFrame) (e : Entry),
      (if s.cap.table.length = 16 then
        ∃ older freed newer, s.cap.table = older ++ freed :: newer ∧ freed.freeable = true ∧
          (∀ x ∈ older, x.freeable = false) ∧ kept = older ++ newer ∧
          queue = s.link.queue.filter fun f => f.owner != .entry freed.uid
      else kept = s.cap.table ∧ queue = s.link.queue) ∧
      exec (.callArrival dt bytes) s = .next (State.settle { s.elapse dt with
        cap := { s.cap with table := kept ++ [e], nextUid := s.cap.nextUid + 1 }
        link :=
          if answered then
            { (s.elapse dt).link with
              idleCount := some 0, receiver := .waiting, nextAge := s.link.nextAge + 1
              queue := insertFrame ⟨.entry e.uid, .report ⟨b.tag, s.time.state, .none,
                s.readings s.image.groups[b.group].map instant⟩, s.link.nextAge, 0, false⟩ queue }
          else { (s.elapse dt).link with idleCount := some 0, receiver := .waiting, queue := queue } }) ∧
      e.uid = s.cap.nextUid ∧ e.tag = b.tag ∧ e.group = b.group ∧ e.time = b.time ∧ e.kind = b.kind ∧ e.origin = none ∧
      e.retentionEnd = laterOf (s.elapse dt).netTime b.time + 1000000 ∧
      e.strobe = (if b.kind ≠ .triggered ∧ later instant (s.elapse dt).time.localTime = true then .pending
        else .missed) ∧
      e.member = if answered then .resolved else .waiting

/-- R11, R12, R13: a CALL more than 1,000,000 ticks ahead is answered with a declined REPORT with reason FAR, and one that
finds a full table with nothing freeable with reason TABLE-FULL: class 1, no channel entries, the time state of the
moment, and the tag on the declined list; here with room in the queue. No entry is made and nothing else changes. -/
def Obligations.CallDeclined : Prop :=
  ∀ (dt : Lapse) (bytes : List Byte) (cls : BitVec 2) (sender : Ident) (b : CallFrame) (s : State) (far : Bool),
    Frame.decode bytes = some ⟨cls, sender, .call b⟩ → sender ≠ s.ctrl.identity →
    ((s.elapse dt).frameEnds bytes).isSome = true →
    s.ctrl.lifecycle = .joined → b.agrees = true → s.image.declared.getLsbD b.group.val = true →
    s.tagged? b.tag = none → b.tag ∉ s.cap.declined → s.link.count < 12 →
    (if far then 1000000 < timeDiff b.time (s.elapse dt).netTime
      else timeDiff b.time (s.elapse dt).netTime ≤ 1000000 ∧ 16 ≤ s.cap.table.length ∧
        ∀ e ∈ s.cap.table, e.freeable = false) →
    exec (.callArrival dt bytes) s = .next (State.settle { s.elapse dt with
      cap := { s.cap with declined := s.cap.declined ++ [b.tag] }
      link := { (s.elapse dt).link with
        idleCount := some 0, receiver := .waiting, nextAge := s.link.nextAge + 1
        queue := insertFrame ⟨.declined b.tag, .report ⟨b.tag, s.time.state, if far then .far else .tableFull, []⟩,
          s.link.nextAge, 0, false⟩ s.link.queue } })

/-- R9: another station's CALL for a tag whose own CALL waits in the queue withdraws the own CALL and drops the origin
part; the entry stays as it was beside that, unless its retention end has passed, when it is freed with its frames. No
fire is lost. That a retention end exactly 2^47 ticks from local time counts as passed is the model's choice, assumption 33
(DESIGN CHOICE). -/
def Obligations.OwnCallGivesWay : Prop :=
  ∀ (dt : Lapse) (bytes : List Byte) (cls : BitVec 2) (sender : Ident) (b : CallFrame) (s : State) (e : Entry) (o : Origin),
    Frame.decode bytes = some ⟨cls, sender, .call b⟩ → sender ≠ s.ctrl.identity →
    ((s.elapse dt).frameEnds bytes).isSome = true →
    s.ctrl.lifecycle = .joined → b.agrees = true → s.image.declared.getLsbD b.group.val = true →
    s.tagged? b.tag = some e → e.origin = some o → o.state = .calling → s.link.callQueued (.entry e.uid) = true →
    s.uidsSound = true →
    exec (.callArrival dt bytes) s = .next (State.settle { s.elapse dt with
      cap := { s.cap with
        table :=
          if later (e.retentionEnd - s.time.correction) (s.elapse dt).time.localTime = true then
            s.cap.table.map fun x => if x = e then { x with origin := none } else x
          else s.cap.table.filter fun x => x != e }
      link := { (s.elapse dt).link with
        idleCount := some 0, receiver := .waiting
        queue := s.link.queue.filter fun f => decide (f.owner = .entry e.uid →
          later (e.retentionEnd - s.time.correction) (s.elapse dt).time.localTime = true ∧ f.content.isCall = false) } })

/-- R40, R42: a REPORT from a station not yet counted, for an entry in COLLECTING or CLOSING whose close-begun mark is
clear, puts its sender into the decliner set if it was declined and into the responder set if not. Where that covers the
expected set in COLLECTING, the origin part goes to CLOSING and one CLOSE is queued with its content open, here with room
for it; else no frame is queued. -/
def Obligations.ReportCounted : Prop :=
  ∀ (dt : Lapse) (bytes : List Byte) (cls : BitVec 2) (sender : Ident) (b : ReportFrame) (s : State) (e : Entry) (o : Origin),
    Frame.decode bytes = some ⟨cls, sender, .report b⟩ → sender ≠ s.ctrl.identity →
    ((s.elapse dt).frameEnds bytes).isSome = true →
    s.ctrl.lifecycle = .joined → s.tagged? b.tag = some e → e.origin = some o → o.state ≠ .calling → o.begun = false →
    hasIdent o.responders sender = false → hasIdent o.decliners sender = false → s.uidsSound = true →
    s.link.count < 12 →
    ∃ (o' : Origin) (covered : Bool),
      o'.responders = (if b.reason = .none then o.responders ||| identBit sender else o.responders) ∧
      o'.decliners = (if b.reason = .none then o.decliners else o.decliners ||| identBit sender) ∧
      (covered = true ↔ ∀ n : Fin 32, o.expected.getLsbD n.val = true →
        o'.responders.getLsbD n.val = true ∨ o'.decliners.getLsbD n.val = true) ∧
      o'.state = (if o.state = .collecting ∧ covered = true then .closing else o.state) ∧ o'.expected = o.expected ∧
      o'.deadline = o.deadline ∧ o'.begun = false ∧ o'.term = o.term ∧
      exec (.reportArrival dt bytes) s = .next (State.settle { s.elapse dt with
        cap := { s.cap with table := s.cap.table.map fun x => if x = e then { x with origin := some o' } else x }
        link :=
          if o.state = .collecting ∧ covered = true then
            { (s.elapse dt).link with
              idleCount := some 0, receiver := .waiting, nextAge := s.link.nextAge + 1
              queue := insertFrame ⟨.entry e.uid, .close none, s.link.nextAge, 0, false⟩ s.link.queue }
          else { (s.elapse dt).link with idleCount := some 0, receiver := .waiting } })

/-- R22, R48, R13: a CLOSE frees a member-only entry, an entry whose own CALL waits in the queue, and an entry that collects
or closes where its sender's identity is the lower; the entry's frames not in flight are withdrawn and no fire is lost. A
CLOSE for a tag on the declined list withdraws the declined REPORT that waits for it. -/
def Obligations.CloseFreesEntry : Prop :=
  ∀ (dt : Lapse) (bytes : List Byte) (cls : BitVec 2) (sender : Ident) (b : CloseFrame) (s : State),
    Frame.decode bytes = some ⟨cls, sender, .close b⟩ → sender ≠ s.ctrl.identity →
    ((s.elapse dt).frameEnds bytes).isSome = true →
    s.ctrl.lifecycle = .joined →
    (∀ e, s.tagged? b.tag = some e → s.uidsSound = true →
      (e.origin = none ∨
        (∃ o, e.origin = some o ∧ o.state = .calling ∧ s.link.callQueued (.entry e.uid) = true) ∨
        (∃ o, e.origin = some o ∧ o.state ≠ .calling ∧ sender < s.ctrl.identity)) →
      exec (.closeArrival dt bytes) s = .next (State.settle { s.elapse dt with
        cap := { s.cap with table := s.cap.table.filter fun x => x != e }
        link := { (s.elapse dt).link with
          idleCount := some 0, receiver := .waiting
          queue := s.link.queue.filter fun f => f.owner != .entry e.uid } })) ∧
    (s.tagged? b.tag = none → b.tag ∈ s.cap.declined →
      (∃ f ∈ s.link.queue, f.owner = .declined b.tag) →
      exec (.closeArrival dt bytes) s = .next (State.settle { s.elapse dt with
        cap := { s.cap with declined := s.cap.declined.filter fun t => t != b.tag }
        link := { (s.elapse dt).link with
          idleCount := some 0, receiver := .waiting
          queue := s.link.queue.filter fun f => f.owner != .declined b.tag } }))

/-- R59 to R63: a PRESET for a declared group in JOINED that is no duplicate is refused with the first reason that applies,
LATE, FAR, FULL or CROWDED, which overwrites the refusal record, or joins the list before the first preset whose time is
later, and so, where the times compare in one order, behind those whose time is earlier or equal. That it goes behind one
whose time lies exactly 2^47 ticks from its own, and before the first later one where times more than 2^47 ticks apart
compare in a cycle, is the model's choice, assumption 33 (DESIGN CHOICE). -/
def Obligations.PresetChecked : Prop :=
  ∀ (dt : Lapse) (bytes : List Byte) (cls : BitVec 2) (sender : Ident) (b : PresetFrame) (s : State),
    Frame.decode bytes = some ⟨cls, sender, .preset b⟩ → sender ≠ s.ctrl.identity →
    ((s.elapse dt).frameEnds bytes).isSome = true →
    s.ctrl.lifecycle = .joined → s.image.declared.getLsbD b.group.val = true →
    (∀ q ∈ s.hist.presets, ¬ (q.group = b.group ∧ q.time = b.time)) →
    let now := (s.elapse dt).netTime
    let reason : RefusalReason :=
      if later b.time now = false then .late
      else if 1000000 < timeDiff b.time now then .far
      else if 4 ≤ s.hist.presets.length then .full
      else if ∃ q ∈ s.hist.presets, q.chans &&& s.image.groups[b.group].map ≠ 0 ∧
        (timeDiff q.time b.time).natAbs ≤ s.image.samplePeriod then .crowded
      else .none
    (reason ≠ .none →
      exec (.presetArrival dt bytes) s = .next (State.settle { s.elapse dt with
        req := { s.req with refusal := ⟨reason, sender, b.group⟩ }
        link := { (s.elapse dt).link with idleCount := some 0, receiver := .waiting } })) ∧
    (reason = .none →
      ∃ earlier behind, s.hist.presets = earlier ++ behind ∧
        (∀ q ∈ earlier, later q.time b.time = false) ∧ (∀ q, behind.head? = some q → later q.time b.time = true) ∧
        exec (.presetArrival dt bytes) s = .next (State.settle { s.elapse dt with
          hist := { s.hist with
            presets := earlier ++ ⟨b.group, b.time, b.value, s.image.groups[b.group].map⟩ :: behind }
          link := { (s.elapse dt).link with idleCount := some 0, receiver := .waiting } }))

/-- R151, R153, R154, R157: a REQUEST taken, of kind STATUS or unknown, changes nothing and is answered: a REPLY of class 3
to its sender joins the queue, here with room and no earlier REPLY to the sender waiting, and an entry with the kind as
received and the result joins the reply list. -/
def Obligations.StatusAndUnknownAnswered : Prop :=
  ∀ (dt : Lapse) (bytes : List Byte) (cls : BitVec 2) (sender : Ident) (b : RequestFrame) (s : State),
    Frame.decode bytes = some ⟨cls, sender, .request b⟩ → sender ≠ s.ctrl.identity →
    ((s.elapse dt).frameEnds bytes).isSome = true →
    s.ctrl.lifecycle = .joined → b.target = s.ctrl.identity → s.link.count < 12 →
    (∀ f ∈ s.link.queue, ∀ other c, f.content = .reply other c → other ≠ sender) →
    ∀ p ∈ [(Request.status, Instr.statusRequest dt bytes, ReplyResult.done),
      (.unknown, .unknownRequest dt bytes, .unknown)],
    b.read = p.1 →
      exec p.2.1 s = .next (State.settle { s.elapse dt with
        req := { s.req with
          replies := s.req.replies ++ [⟨s.req.nextId, sender, b.kind, p.2.2, false⟩], nextId := s.req.nextId + 1 }
        link := { (s.elapse dt).link with
          idleCount := some 0, receiver := .waiting, nextAge := s.link.nextAge + 1
          queue := insertFrame ⟨.reply s.req.nextId, .reply sender none, s.link.nextAge, 0, false⟩ s.link.queue } })

/-- R128, R155: a TERM-CONTROL acts on its term by the table of R128 and on no other, and its result is NO-TERM for a term
of kind NONE and DONE else; the rest changes by the REPLY alone, as for a STATUS. -/
def Obligations.TermControlActs : Prop :=
  ∀ (dt : Lapse) (bytes : List Byte) (cls : BitVec 2) (sender : Ident) (b : RequestFrame) (s : State) (k : TermNo)
    (arm : Bool),
    Frame.decode bytes = some ⟨cls, sender, .request b⟩ → sender ≠ s.ctrl.identity →
    ((s.elapse dt).frameEnds bytes).isSome = true →
    s.ctrl.lifecycle = .joined → b.target = s.ctrl.identity → s.link.count < 12 → s.linesSound = true →
    (∀ f ∈ s.link.queue, ∀ other c, f.content = .reply other c → other ≠ sender) →
    b.read = (if arm then .arm k else .disarm k) →
    let old := s.trig.terms.get k
    let c := (s.image.terms.get k).condition
    ∃ term : Term,
      exec (if arm then .termControlArm dt bytes else .termControlDisarm dt bytes) s =
        .next { s.elapse dt with
          trig := { s.trig with terms := s.trig.terms.set k term }
          req := { s.req with
            replies := s.req.replies ++
              [⟨s.req.nextId, sender, b.kind, if c = .none then .noTerm else .done, false⟩]
            nextId := s.req.nextId + 1 }
          link := { (s.elapse dt).link with
            idleCount := some 0, receiver := .waiting, nextAge := s.link.nextAge + 1
            queue := insertFrame ⟨.reply s.req.nextId, .reply sender none, s.link.nextAge, 0, false⟩ s.link.queue } } ∧
      term.blocked = old.blocked ∧
      (c = .none → term = old) ∧
      (c ≠ .none → arm = false → term = { old with state := .disarmed }) ∧
      (c ≠ .none → arm = true → term.fireLost = false ∧
        (old.state = .disarmed → term.state = .armed ∧ term.ready = (!old.blocked && c.readyNow s.trig.levels)) ∧
        (old.state ≠ .disarmed → term.state = old.state ∧ term.ready = old.ready))

/-- R106, R109, R156: a FAULT-ACK acts on the selected active channels alone. UNCONFIRMED becomes GOOD with its timer
stopped, UNCONFIRMED and GOOD lose every latched flag whose cause is absent, FAULT loses R's at most and stays; the result
is STILL-PRESENT exactly where a selected active channel was in FAULT. -/
def Obligations.FaultAckActs : Prop :=
  ∀ (dt : Lapse) (bytes : List Byte) (cls : BitVec 2) (sender : Ident) (b : RequestFrame) (s : State) (chans : ChanSet),
    Frame.decode bytes = some ⟨cls, sender, .request b⟩ → sender ≠ s.ctrl.identity →
    ((s.elapse dt).frameEnds bytes).isSome = true →
    s.ctrl.lifecycle = .joined → b.target = s.ctrl.identity → s.link.count < 12 →
    (∀ f ∈ s.link.queue, ∀ other c, f.content = .reply other c → other ≠ sender) → b.read = .faultAck chans →
    ∃ (after : Four Channel) (result : ReplyResult),
      exec (.faultAck dt bytes) s = .next (State.settle { s.elapse dt with
        chans := after
        req := { s.req with
          replies := s.req.replies ++ [⟨s.req.nextId, sender, b.kind, result, false⟩], nextId := s.req.nextId + 1 }
        link := { (s.elapse dt).link with
          idleCount := some 0, receiver := .waiting, nextAge := s.link.nextAge + 1
          queue := insertFrame ⟨.reply s.req.nextId, .reply sender none, s.link.nextAge, 0, false⟩ s.link.queue } }) ∧
      (result = .stillPresent ↔
        ∃ i : Chan, chans.getLsbD i.val = true ∧ s.image.modes.get i ≠ .off ∧ (s.chans.get i).quality = .fault) ∧
      (result ≠ .stillPresent → result = .done) ∧
      ∀ i : Chan,
        let old := s.chans.get i
        let new := after.get i
        if chans.getLsbD i.val = false ∨ s.image.modes.get i = .off then new = old
        else
          new.count = old.count ∧ new.epoch = old.epoch ∧ new.lastA = old.lastA ∧ new.lastB = old.lastB ∧
          (∀ n, (new.record n).cause = (old.record n).cause) ∧ new.recR.latched = (old.recR.latched && old.recR.cause) ∧
          match old.quality with
          | .fault => new.quality = .fault ∧ new.timer = old.timer ∧ new.recA = old.recA ∧ new.recB = old.recB
          | .good => new.quality = .good ∧ new.timer = old.timer ∧
            new.recA.latched = (old.recA.latched && old.recA.cause) ∧
            new.recB.latched = (old.recB.latched && old.recB.cause)
          | .unconfirmed => new.quality = .good ∧ new.timer = none ∧
            new.recA.latched = (old.recA.latched && old.recA.cause) ∧
            new.recB.latched = (old.recB.latched && old.recB.cause)

/-! ### The link -/

/-- R134, R36, R45, R77, R146, R159: on an idle bus with the link ACTIVE the frame that awaits its retry, else the head of
the queue, goes in flight, and its owner composes it: a CALL's first start takes the expected set, a CLOSE's sets the
close-begun mark and fixes its sets, every start of a BEACON stamps it afresh, and a REPLY's first start takes the snapshot
and clears the quiet mark. The frame goes out in its kind's class under the station's identity, in the layouts of chapter
10, and the receiver follows it from this start edge on. Nothing else changes; and while the bus is not idle, because
another station has started first, or while the link is QUIET or the lifecycle state allows no start, nothing starts.
That a frame offered on an idle bus may start at the tick of its offer is the model's choice, assumption 35 (DESIGN
CHOICE). -/
def Obligations.FrameStartComposes : Prop :=
  (∀ (dt : Lapse) (s : State), (∀ n, (s.elapse dt).link.idleCount = some n → n < 12) ∨ s.link.state ≠ .active ∨
    (s.ctrl.lifecycle ≠ .joined ∧ s.ctrl.lifecycle ≠ .leaving) →
    exec (.frameStart dt) s = .next (State.settle (s.elapse dt))) ∧
  ∀ (dt : Lapse) (s : State) (f : QFrame) (rest : List QFrame) (n : Nat), s.ctrl.hold = none → s.link.state = .active →
    (s.elapse dt).link.idleCount = some n → 12 ≤ n →
    (s.ctrl.lifecycle = .joined ∨ (s.ctrl.lifecycle = .leaving ∧ ∃ reason, f.content = .leave reason)) →
    ((s.link.flight = none ∧ s.link.queue = f :: rest) ∨
      ∃ sent finishing, s.link.flight = some ⟨f, sent, false, finishing⟩ ∧ s.link.queue = rest) →
    ∃ (content : Content) (sent : List Byte) (table : List Entry) (req : RequestUnit),
      exec (.frameStart dt) s = .next (State.settle { s.elapse dt with
        cap := { s.cap with table := table }
        req := req
        link := { s.link with
          queue := rest, flight := some ⟨{ f with content := content, started := true }, sent, true, false⟩
          idleCount := some 0, receiver := .taking (s.elapse dt).time.localTime, mark := none } }) ∧
      (sent = match content with
        | .call x => Frame.encode ⟨0, s.ctrl.identity, .call x⟩
        | .close (some x) => Frame.encode ⟨0, s.ctrl.identity, .close x⟩
        | .leave reason => Frame.encode ⟨0, s.ctrl.identity, .leave reason⟩
        | .report x => Frame.encode ⟨1, s.ctrl.identity, .report x⟩
        | .beacon (some x) => Frame.encode ⟨2, s.ctrl.identity, .beacon x⟩
        | .reply _ (some x) => Frame.encode ⟨3, s.ctrl.identity, .reply x⟩
        | _ => []) ∧
      match f.owner, f.content with
      | .entry uid, .call b =>
        content = f.content ∧ req = s.req ∧
        if f.started then table = s.cap.table
        else ∃ expected : IdSet,
          (∀ i : Fin 32, expected.getLsbD i.val = true ↔ s.ctrl.identity.toNat = i.val ∨
            ∃ p ∈ s.time.peers, p.ident.toNat = i.val ∧ (p.state = .admitted ∨ p.state = .suspect) ∧
              p.groups.getLsbD b.group.val = true) ∧
          table = s.cap.table.map fun x =>
            if x.uid = uid then { x with origin := x.origin.map fun o => { o with expected := expected } } else x
      | .entry uid, .close none =>
        req = s.req ∧
        match s.entry? uid with
        | some { tag := tag, origin := some o, .. } =>
          (∃ missing : IdSet, missing = o.expected &&& ~~~(o.responders ||| o.decliners) ∧
            content = .close (some ⟨tag, decide (missing = 0), o.responders, o.decliners, missing⟩)) ∧
          table = s.cap.table.map fun x =>
            if x.uid = uid then { x with origin := x.origin.map fun o => { o with begun := true } } else x
        | _ => content = f.content ∧ table = s.cap.table
      | .time, .beacon _ =>
        content = .beacon (some ⟨(s.elapse dt).time.localTime + s.time.correction, s.image.declared, s.ctrl.lifecycle,
          s.time.state, s.ctrl.resetCause⟩) ∧ table = s.cap.table ∧ req = s.req
      | .reply id, .reply requester none =>
        table = s.cap.table ∧
        match s.reply? id with
        | some r =>
          if r.composed then content = f.content ∧ req = s.req
          else content = .reply requester (some ⟨r.requester, r.kind, r.result, s.snapshot⟩) ∧
            req = { s.req with
              quietMark := false
              replies := s.req.replies.map fun x => if x.id = id then { x with composed := true } else x }
        | none => content = f.content ∧ req = s.req
      | _, _ => content = f.content ∧ table = s.cap.table ∧ req = s.req

/-- R136, R149: a frame that loses arbitration, in a bit of its priority byte that this station drives recessive, goes back
to the place its class and age give it, its attempts and content kept, and the station goes on receiving the winner's frame
from the start edge the two had; one that a change out of JOINED left to finish is withdrawn instead. The bit is the one
that begins now, counted in ticks from the start edge (the model's choice, assumption 31, DESIGN CHOICE), and the priority
byte's stop bit is one of its bits (the model's inference, assumption 37, DEDUCED). In a dominant bit, past the priority
byte, or with no frame on the wire, the command changes nothing (the model's choice, assumption 1, DESIGN CHOICE). That a
frame goes back also where a newer one has been queued, or its entry freed, while it was in flight is the model's inference,
assumption 21 (DEDUCED). -/
def Obligations.LostArbitrationReturnsFrame : Prop :=
  (∀ (dt : Lapse) (s : State) (f : QFrame) (sent : List Byte) (finishing : Bool) (edge : Time),
    s.link.flight = some ⟨f, sent, true, finishing⟩ → s.link.receiver = .taking edge →
    let k := ((s.elapse dt).time.localTime - edge).toNat
    (k < 10 → k < 10 * sent.length → dominantBit sent k = false → finishing = false →
      exec (.lostArbitration dt) s = .next (State.settle { s.elapse dt with
        link := { (s.elapse dt).link with
          flight := none, idleCount := some 0, queue := insertFrame f s.link.queue } })) ∧
    (k < 10 → k < 10 * sent.length → dominantBit sent k = false → finishing = true →
      exec (.lostArbitration dt) s = .next (State.settle { s.elapse dt with
        link := { (s.elapse dt).link with flight := none, idleCount := some 0 }
        cap := { s.cap with declined := s.cap.declined.filter fun t => f.owner != .declined t }
        req := { s.req with replies := s.req.replies.filter fun r => f.replyId? != some r.id } })) ∧
    (10 ≤ k ∨ dominantBit sent k = true → exec (.lostArbitration dt) s = .next (State.settle (s.elapse dt)))) ∧
  ∀ (dt : Lapse) (s : State), (∀ fl, s.link.flight = some fl → fl.onWire = false) →
    exec (.lostArbitration dt) s = .next (State.settle (s.elapse dt))

/-- R133, R137, R138: a bit error before the fourth, in any bit of the frame but a recessive one of its priority byte, keeps
the frame in flight, awaiting its retry with one failed attempt more, sends the receiver to wait for idle, and begins an
error mark, which the station drives for 12 bit times; the idle count goes back to 0 where the bit reads dominant, and
nothing else changes. That the bit is the one that begins now and the mark begins one tick later is the model's choice,
assumption 31 (DESIGN CHOICE); so is that a bit error named in a recessive bit of the priority byte, where a difference is
lost arbitration, or after the frame's last bit, changes nothing, assumption 1 (DESIGN CHOICE). -/
def Obligations.BitErrorAwaitsRetry : Prop :=
  (∀ (dt : Lapse) (s : State) (f : QFrame) (sent : List Byte) (edge : Time),
    s.link.flight = some ⟨f, sent, true, false⟩ → s.link.receiver = .taking edge →
    let k := ((s.elapse dt).time.localTime - edge).toNat
    (f.attempts < 3 → k < 10 * sent.length → (k < 10 → dominantBit sent k = true) →
      exec (.bitError dt) s = .next (State.settle { s.elapse dt with
        link := { s.link with
          flight := some ⟨{ f with attempts := f.attempts + 1 }, sent, false, false⟩
          idleCount := if dominantBit sent k then (s.elapse dt).link.idleCount else some 0
          receiver := .waiting, mark := some ((s.elapse dt).time.localTime + 1) } })) ∧
    (10 * sent.length ≤ k ∨ (k < 10 ∧ dominantBit sent k = false) →
      exec (.bitError dt) s = .next (State.settle (s.elapse dt)))) ∧
  ∀ s : State, s.marking = true ↔
    ∃ m, s.link.mark = some m ∧ later m s.time.localTime = false ∧ later (m + 12) s.time.localTime = true

/-- R137, R138, R147, R149, R20, R38, R47, R162, R175: the fourth failed attempt discards the frame and counts the discard, the
third in a row making the link QUIET for 100 ms; an attempt that a change out of JOINED left to finish is discarded at once
and not counted. The bit is any of the frame but a recessive one of its priority byte. In each case an error mark begins,
one tick after the bit that begins now (the model's choice, assumption 31, DESIGN CHOICE). The owner takes *failed*: a CALL frees its entry and loses its term's fire, a REPORT abandons a RESOLVED entry, a CLOSE frees
its entry, and a LEAVE ends LEAVING. -/
def Obligations.DiscardTellsOwner : Prop :=
  ∀ (dt : Lapse) (s : State) (f : QFrame) (sent : List Byte) (finishing : Bool) (edge : Time), s.ctrl.hold = none →
    s.link.flight = some ⟨f, sent, true, finishing⟩ → s.link.receiver = .taking edge →
    (finishing = true ∨ 3 ≤ f.attempts) →
    let k := ((s.elapse dt).time.localTime - edge).toNat
    k < 10 * sent.length → (k < 10 → dominantBit sent k = true) →
    let quiet : Bool := !finishing && decide (2 ≤ s.link.discards)
    ∃ (table : List Entry) (queue : List QFrame) (trig : Trigger) (ctrl : Controller),
      exec (.bitError dt) s = .next (State.settle { s.elapse dt with
        link := { s.link with
          flight := none, receiver := .waiting, queue := queue
          idleCount := if dominantBit sent k then (s.elapse dt).link.idleCount else some 0
          mark := some ((s.elapse dt).time.localTime + 1)
          discards := if finishing then s.link.discards else if quiet then 0 else s.link.discards + 1
          state := if quiet then .quiet ((s.elapse dt).time.localTime + 1000000) else s.link.state }
        req := { s.req with
          quietMark := s.req.quietMark || quiet
          replies := s.req.replies.filter fun r => f.replyId? != some r.id }
        cap := { s.cap with
          table := table, declined := s.cap.declined.filter fun t => f.owner != .declined t }
        trig := trig
        ctrl := ctrl }) ∧
      match f.owner, f.content with
      | .entry uid, .call _ =>
        table = s.cap.table.filter (fun x => x.uid != uid) ∧
        (s.entry? uid = none → queue = s.link.queue) ∧
        (s.entry? uid ≠ none → queue = s.link.queue.filter fun g => g.owner != .entry uid) ∧ ctrl = s.ctrl ∧
        trig = { s.trig with terms := Four.build fun k =>
          if ((s.entry? uid).bind Entry.origin).bind Origin.term = some k
          then { s.trig.terms.get k with fireLost := true } else s.trig.terms.get k }
      | .entry uid, .report _ =>
        table = s.cap.table.map (fun x =>
          if x.uid = uid ∧ x.member = .resolved then { x with member := .abandoned } else x) ∧
        queue = s.link.queue ∧ trig = s.trig ∧ ctrl = s.ctrl
      | .entry uid, .close _ =>
        table = s.cap.table.filter (fun x => x.uid != uid) ∧
        queue = s.link.queue.filter (fun g => g.owner != .entry uid) ∧ trig = s.trig ∧ ctrl = s.ctrl
      | .controller, _ =>
        table = s.cap.table ∧ queue = s.link.queue ∧ trig = s.trig ∧
        ctrl =
          if s.ctrl.lifecycle = .leaving then
            match s.ctrl.monitor with
            | .warning => { s.ctrl with lifecycle := .withdrawn }
            | .normal => { s.ctrl with
                lifecycle := .listening, listenTimer := some ((s.elapse dt).time.localTime + 1500000) }
          else s.ctrl
      | _, _ => table = s.cap.table ∧ queue = s.link.queue ∧ trig = s.trig ∧ ctrl = s.ctrl

/-- R138, R145, R20, R37, R47, R162, R175: a frame that ends with no bit error, ten ticks for each byte after its start
edge, is gone and the discard count is 0. A CALL's entry goes from CALLING to COLLECTING with its deadline one collect
window after the later of now and the capture time, a member-only entry's REPORT makes it REPORTED, a CLOSE frees its
entry, a LEAVE ends LEAVING; nothing else changes. That the deadline counts from now where the capture time lies 2^47
ticks from it is the model's choice, assumption 33 (DESIGN CHOICE), and that the idle count begins anew at the frame's
end its inference, assumption 36 (DEDUCED). -/
def Obligations.FrameSentTellsOwner : Prop :=
  ∀ (dt : Lapse) (s : State) (f : QFrame) (sent : List Byte) (finishing : Bool) (edge : Time), s.ctrl.hold = none →
    s.link.flight = some ⟨f, sent, true, finishing⟩ → s.link.receiver = .taking edge →
    later (edge + BitVec.ofNat 48 (10 * sent.length)) (s.elapse dt).time.localTime = false →
    (∀ uid r e, f.owner = .entry uid → f.content = .report r → s.entry? uid = some e → e.origin = none) →
    ∃ (table : List Entry) (queue : List QFrame) (ctrl : Controller),
      exec (.frameSent dt) s = .next (State.settle { s.elapse dt with
        link := { s.link with
          flight := none, idleCount := some 0, receiver := .waiting, queue := queue, discards := 0 }
        req := { s.req with replies := s.req.replies.filter fun r => f.replyId? != some r.id }
        cap := { s.cap with
          table := table, declined := s.cap.declined.filter fun t => f.owner != .declined t }
        ctrl := ctrl }) ∧
      match f.owner, f.content with
      | .entry uid, .call _ =>
        queue = s.link.queue ∧ ctrl = s.ctrl ∧
        table = s.cap.table.map fun x =>
          if x.uid = uid then
            { x with origin := x.origin.map fun o =>
                if o.state = .calling then
                  { o with
                    state := .collecting
                    deadline := some (laterOf (s.elapse dt).netTime x.time +
                      BitVec.ofNat 48 (s.image.collectWindow * 10000)) }
                else o }
          else x
      | .entry uid, .report _ =>
        queue = s.link.queue ∧ ctrl = s.ctrl ∧
        table = s.cap.table.map fun x =>
          if x.uid = uid ∧ x.member = .resolved then { x with member := .reported } else x
      | .entry uid, .close _ =>
        table = s.cap.table.filter (fun x => x.uid != uid) ∧
        queue = s.link.queue.filter (fun g => g.owner != .entry uid) ∧ ctrl = s.ctrl
      | .controller, _ =>
        table = s.cap.table ∧ queue = s.link.queue ∧
        ctrl =
          if s.ctrl.lifecycle = .leaving then
            match s.ctrl.monitor with
            | .warning => { s.ctrl with lifecycle := .withdrawn }
            | .normal => { s.ctrl with
                lifecycle := .listening, listenTimer := some ((s.elapse dt).time.localTime + 1500000) }
          else s.ctrl
      | _, _ => table = s.cap.table ∧ queue = s.link.queue ∧ ctrl = s.ctrl

/-- R41, R42: the origin's own REPORT, sent while its origin part still takes answers and has not counted the station, adds
the station to the responders, and where that covers the expected set in COLLECTING it begins the closing. Sent with the
close-begun mark set, or with the station counted already, it makes the member part REPORTED and changes neither set. -/
def Obligations.OwnReportCounted : Prop :=
  ∀ (dt : Lapse) (s : State) (f : QFrame) (sent : List Byte) (edge : Time) (r : ReportFrame) (e : Entry) (o : Origin),
    s.link.flight = some ⟨f, sent, true, false⟩ → s.link.receiver = .taking edge →
    later (edge + BitVec.ofNat 48 (10 * sent.length)) (s.elapse dt).time.localTime = false →
    f.owner = .entry e.uid → f.content = .report r → e ∈ s.cap.table → e.origin = some o → s.uidsSound = true →
    s.queueSound = true →
    (o.begun = true ∨ hasIdent o.responders s.ctrl.identity = true ∨ hasIdent o.decliners s.ctrl.identity = true →
      exec (.frameSent dt) s = .next (State.settle { s.elapse dt with
        cap := { s.cap with table := s.cap.table.map fun x =>
          if x = e then { e with member := if e.member = .resolved then .reported else e.member } else x }
        link := { s.link with flight := none, idleCount := some 0, receiver := .waiting, discards := 0 } })) ∧
    (o.state ≠ .calling → o.begun = false → hasIdent o.responders s.ctrl.identity = false →
    hasIdent o.decliners s.ctrl.identity = false →
    let responders := o.responders ||| identBit s.ctrl.identity
    let covered : Bool := decide (o.state = .collecting ∧
      ∀ n : Fin 32, o.expected.getLsbD n.val = true → responders.getLsbD n.val = true ∨ o.decliners.getLsbD n.val = true)
    exec (.frameSent dt) s = .next (State.settle { s.elapse dt with
      cap := { s.cap with table := s.cap.table.map fun x =>
        if x = e then
          { e with
            member := if e.member = .resolved then .reported else e.member
            origin := some { o with responders := responders, state := if covered then .closing else o.state } }
        else x }
      link :=
        if covered then
          { s.link with
            flight := none, idleCount := some 0, receiver := .waiting, discards := 0, nextAge := s.link.nextAge + 1
            queue := insertFrame ⟨.entry e.uid, .close none, s.link.nextAge, 0, false⟩ s.link.queue }
        else { s.link with flight := none, idleCount := some 0, receiver := .waiting, discards := 0 } }))

/-- R133, R137, R139, R147: at the quiet end the link is ACTIVE again. While the blocks run the idle count counts the
recessive bit times, one to the tick, since the last dominant one, whoever drives it: another station, the own frame on the
wire, bit by bit of its bytes, or the own error mark. The bus is idle from a count of 12 on, and a receiver that waits for
that is made ready. A bit that another station drives dominant after 12 recessive ones begins a frame with that start edge,
where no frame is being taken. A framing error loses the frame being taken and sends the receiver to wait; one at a dominant
stop bit puts the count to 0. That the count covers the bit times that have passed and goes on past 12 is the
model's choice, assumption 12 (DESIGN CHOICE); that the others' dominant bit times come as part of a command's lapse is its
choice, assumption 13 (DESIGN CHOICE), and so is that a BUS_IDLE before the count has reached 12, or where the receiver does not
wait, changes nothing, assumption 1 (DESIGN CHOICE). -/
def Obligations.QuietEndIdleAndFramingError : Prop :=
  (∀ (bytes : List Byte) (k : Nat), dominantBit bytes k = true ↔ k < 10 * bytes.length ∧
    (k % 10 = 0 ∨ (k % 10 ≤ 8 ∧ (bytes.getD (k / 10) 0).getLsbD (8 - k % 10) = false))) ∧
  (∀ l : LinkUnit, l.busIdle = true ↔ ∃ n, l.idleCount = some n ∧ 12 ≤ n) ∧
  ∀ (dt : Lapse) (s : State),
    let now := s.time.localTime
    let drives (o : Nat) : Prop := o ∈ dt.dominant ∨
      (∃ fl edge k, s.link.flight = some fl ∧ fl.onWire = true ∧ s.link.receiver = .taking edge ∧
        dominantBit fl.bytes k = true ∧ now + BitVec.ofNat 48 o = edge + BitVec.ofNat 48 k) ∨
      ∃ m k, s.link.mark = some m ∧ k < 12 ∧ now + BitVec.ofNat 48 o = m + BitVec.ofNat 48 k
    let begins (k count : Nat) : Prop := k ∈ dt.dominant ∧ k < dt.ticks ∧ (∀ o, o < k → drives o → o + 12 < k) ∧
      ((∀ o, o < k → ¬ drives o) → 12 ≤ count + k)
    (∀ quietEnd, s.link.state = .quiet quietEnd → s.running = true →
      later quietEnd (s.elapse dt).time.localTime = false →
      exec (.quietEnd dt) s = .next (State.settle { s.elapse dt with
        link := { (s.elapse dt).link with state := .active } })) ∧
    (∀ count, s.running = true → s.link.idleCount = some count → dt.ticks < 2 ^ 47 →
      ((∀ o, o < dt.ticks → ¬ drives o) → (s.elapse dt).link.idleCount = some (count + dt.ticks)) ∧
      (∀ last, last < dt.ticks → drives last → (∀ o, last < o → o < dt.ticks → ¬ drives o) →
        (s.elapse dt).link.idleCount = some (dt.ticks - 1 - last)) ∧
      (∀ k, (∀ edge, s.link.receiver ≠ .taking edge) → begins k count → (∀ j, j < k → ¬ begins j count) →
        (s.elapse dt).link = { s.link with
          idleCount := (s.elapse dt).link.idleCount, receiver := .taking (now + BitVec.ofNat 48 k), mark := none }) ∧
      ((∃ edge, s.link.receiver = .taking edge) ∨ (∀ k, ¬ begins k count) →
        (s.elapse dt).link = { s.link with idleCount := (s.elapse dt).link.idleCount })) ∧
    (s.running = false → (s.elapse dt).link = s.link) ∧
    (s.running = true → (s.elapse dt).link.receiver = .waiting → (s.elapse dt).link.busIdle = true →
      exec (.busIdle dt) s = .next (State.settle { s.elapse dt with
        link := { (s.elapse dt).link with receiver := .ready, mark := none } })) ∧
    ((s.elapse dt).link.busIdle = false ∨ (s.elapse dt).link.receiver ≠ .waiting →
      exec (.busIdle dt) s = .next (State.settle (s.elapse dt))) ∧
    (∀ edge, s.running = true → (s.elapse dt).link.receiver = .taking edge →
      (∀ fl, s.link.flight = some fl → fl.onWire = false) → ∀ kind : FramingKind,
      exec (.framingError dt kind) s = .next (State.settle { s.elapse dt with
        link := { (s.elapse dt).link with
          idleCount := if kind = .dominantStop then some 0 else (s.elapse dt).link.idleCount
          receiver := .waiting } }))

/-- R143, R20, R38, R47, R157, R158, R162, R175: an offer. A BEACON takes place and age of a BEACON that waits, and a REPLY
those of a REPLY to the same requester, whose reply-list entry leaves. Else, with fewer than 12 frames, the frame joins by
class and age. In a full queue the frame evicted for it is the youngest of the largest class, greater than its own: a REPORT
whose RESOLVED entry is ABANDONED or whose tag leaves the declined list, a BEACON, or a REPLY whose entry leaves; then it
joins. Where none is of a greater class it is refused: a CALL's entry is freed and its term's fire lost, a CLOSE's entry is
freed, a REPORT is lost as by eviction, a REPLY's entry leaves the list again, and a LEAVE ends LEAVING. -/
def Obligations.EvictionTakesLeastUrgent : Prop :=
  (∀ (l : LinkUnit) (cls : Nat),
    (∀ v, l.victim cls = some v →
      v ∈ l.queue ∧ cls < v.content.cls ∧
      ∀ f ∈ l.queue, f.content.cls < v.content.cls ∨ (f.content.cls = v.content.cls ∧ f.age ≤ v.age)) ∧
    (l.victim cls = none ↔ ∀ f ∈ l.queue, f.content.cls ≤ cls)) ∧
  ∀ (s : State) (owner : Owner) (c : Content),
    let replaced := s.link.queue.find? fun f =>
      match c, f.content with
      | .beacon _, .beacon _ => true
      | .reply requester _, .reply other _ => decide (other = requester)
      | _, _ => false
    let admitted (queue : List QFrame) (l : LinkUnit) : LinkUnit :=
      { l with nextAge := s.link.nextAge + 1, queue := insertFrame ⟨owner, c, s.link.nextAge, 0, false⟩ queue }
    let without (f : QFrame) : RequestUnit := { s.req with replies := s.req.replies.filter fun r => f.replyId? != some r.id }
    let abandoned (uid : Nat) : List Entry := s.cap.table.map fun x =>
      if x.uid = uid ∧ x.member = .resolved then { x with member := .abandoned } else x
    (∀ old, replaced = some old → (old.owner = .time ∨ ∃ id, old.owner = .reply id) →
      s.offer owner c = { s with
        link := { s.link with queue := s.link.queue.map fun f =>
          if f.age = old.age then ⟨owner, c, old.age, 0, false⟩ else f }
        req := without old }) ∧
    (replaced = none → s.link.count < 12 → s.offer owner c = { s with link := admitted s.link.queue s.link }) ∧
    (replaced = none → 12 ≤ s.link.count → ∀ v, s.link.victim c.cls = some v →
      let link := admitted (s.link.queue.filter fun f => f.age != v.age) s.link
      (∀ uid r, v.owner = .entry uid → v.content = .report r →
        s.offer owner c = { s with link := link, cap := { s.cap with table := abandoned uid } }) ∧
      (∀ tag, v.owner = .declined tag →
        s.offer owner c = { s with link := link, cap := { s.cap with declined := s.cap.declined.filter fun t => t != tag } }) ∧
      (v.owner = .time → s.offer owner c = { s with link := link }) ∧
      (∀ id, v.owner = .reply id → s.offer owner c = { s with link := link, req := without v })) ∧
    (replaced = none → 12 ≤ s.link.count → s.link.victim c.cls = none →
      (∀ uid b e, owner = .entry uid → c = .call b → s.entry? uid = some e →
        s.offer owner c = { s with
          cap := { s.cap with table := s.cap.table.filter fun x => x.uid != uid }
          link := { s.link with queue := s.link.queue.filter fun f => f.owner != .entry uid }
          trig := { s.trig with terms := Four.build fun k =>
            if (e.origin.bind Origin.term) = some k then { s.trig.terms.get k with fireLost := true }
            else s.trig.terms.get k } }) ∧
      (∀ uid b, owner = .entry uid → c = .close b →
        s.offer owner c = { s with
          cap := { s.cap with table := s.cap.table.filter fun x => x.uid != uid }
          link := { s.link with queue := s.link.queue.filter fun f => f.owner != .entry uid } }) ∧
      (∀ uid r, owner = .entry uid → c = .report r →
        s.offer owner c = { s with cap := { s.cap with table := abandoned uid } }) ∧
      (∀ tag, owner = .declined tag →
        s.offer owner c = { s with cap := { s.cap with declined := s.cap.declined.filter fun t => t != tag } }) ∧
      (owner = .time → s.offer owner c = s) ∧
      (∀ id, owner = .reply id →
        s.offer owner c = { s with req := { s.req with replies := s.req.replies.filter fun r => r.id != id } }) ∧
      (owner = .controller →
        s.offer owner c = { s with ctrl :=
          if s.ctrl.lifecycle = .leaving then
            match s.ctrl.monitor with
            | .warning => { s.ctrl with lifecycle := .withdrawn }
            | .normal => { s.ctrl with
                lifecycle := .listening, listenTimer := some (s.time.localTime + 1500000) }
          else s.ctrl }))

/-- R142, R151, R10, R133, R134, R137: what every step keeps of the link and of the bookkeeping on its frames: the bus
is idle while the receiver is ready for a start bit, an own frame is on the wire only while the receiver follows it from its
start edge in a station whose blocks run, and from an own error mark on the receiver waits until the bus has been idle; at
most 12 frames; the frames not in flight in order of class and age, and every age its own; one reply-list entry for each
REPLY without an outcome; and each tag of the declined list once, with its declined REPORT. -/
def Obligations.LinkKept : Prop :=
  ∀ s t : State, step s = .next t →
    (s.receiverSound = true → t.receiverSound = true) ∧
    (s.queueSound = true → t.queueSound = true) ∧ (s.queueOrdered = true → t.queueOrdered = true) ∧
    (s.queueOrdered = true → s.repliesSound = true → t.repliesSound = true) ∧
    (s.queueOrdered = true → s.declinedSound = true → t.declinedSound = true)

/-- R28: in CALLING exactly one CALL of the entry is held by the link unit, in CLOSING exactly one CLOSE, in COLLECTING no
class 0 frame: every step keeps it so. -/
def Obligations.OriginPartsHoldTheirFrame : Prop :=
  ∀ s t : State, step s = .next t → s.ownersSound = true → s.uidsSound = true → s.queueOrdered = true →
    s.restSound = true → t.ownersSound = true

/-- R160, R161, R178, R183: a composed REPLY names the requester, kind and result of its entry and holds the snapshot: every
item as its owner holds it, the link state by the quiet mark, and the counts of the ADMITTED, SUSPECT and HEARD peers, of
entries, origin parts, queued frames and presets. In a state whose tables stand within their bounds it is a well-formed
frame: every count fits its encoding, the peers of each state no more than 30. -/
def Obligations.ComposedReplyIsWellFormed : Prop :=
  (∀ (s : State) (r : ReplyEntry),
    let x := (s.composeReply r).snapshot
    let peers (state : PeerState) : Nat := s.time.peers.countP fun p => decide (p.state = state)
    (s.composeReply r).requester = r.requester ∧ (s.composeReply r).kind = r.kind ∧ (s.composeReply r).result = r.result ∧
    x.lifecycle = s.ctrl.lifecycle ∧ x.cause = s.ctrl.resetCause ∧ x.timeState = s.time.state ∧
    x.quiet = s.req.quietMark ∧ x.admitted = peers .admitted ∧ x.suspect = peers .suspect ∧ x.heard = peers .heard ∧
    (∀ i : Chan, (x.chans.get i).quality = (s.chans.get i).quality ∧ (x.chans.get i).count = (s.chans.get i).count ∧
      (x.chans.get i).epoch = (s.chans.get i).epoch ∧
      ∀ n : Line, (x.chans.get i).latched.get n = ((s.chans.get i).record n).latched ∧
        (x.chans.get i).causes.get n = ((s.chans.get i).record n).cause) ∧
    (∀ k : TermNo, (x.terms.get k).blocked = (s.trig.terms.get k).blocked ∧
      (x.terms.get k).fireLost = (s.trig.terms.get k).fireLost ∧
      ((x.terms.get k).phase = .disarmed ↔ (s.trig.terms.get k).state = .disarmed) ∧
      ((x.terms.get k).phase = .armed ↔ (s.trig.terms.get k).state = .armed)) ∧
    x.refusal = s.req.refusal ∧ x.tableEntries = s.cap.table.length ∧
    x.originEntries = s.cap.table.countP (fun e => e.origin.isSome) ∧
    x.queueFrames = s.link.queue.length + (if s.link.flight = none then 0 else 1) ∧ x.presets = s.hist.presets.length) ∧
  ∀ (s : State) (r : ReplyEntry), s.tableSound = true → s.queueSound = true → s.presetsSound = true →
    s.peersSound = true → s.ctrl.identity ≠ 0 → r.requester ≠ 0 → 1 ≤ s.link.count →
    (⟨3, s.ctrl.identity, .reply (s.composeReply r)⟩ : Frame).encodable = true

/-! ### Time -/

/-- R72: times compare by their difference modulo 2^48: later means 1 to 2^47 − 1 ahead; the difference as a number lies
from −2^47 to 2^47 − 1; and of two times 2^47 apart neither is later, neither is at the other, and each reads as −2^47. -/
def Obligations.TimesCompare : Prop :=
  ∀ a b : Time,
    (later a b = true ↔ 1 ≤ (a.toNat + 2 ^ 48 - b.toNat) % 2 ^ 48 ∧ (a.toNat + 2 ^ 48 - b.toNat) % 2 ^ 48 ≤ 2 ^ 47 - 1) ∧
    (-(2 : Int) ^ 47 ≤ timeDiff a b ∧ timeDiff a b ≤ 2 ^ 47 - 1) ∧
    (2 : Int) ^ 48 ∣ timeDiff a b - ((a.toNat : Int) - (b.toNat : Int)) ∧
    (later a b = true ↔ 0 < timeDiff a b) ∧ (timeDiff a b = 0 ↔ a = b) ∧
    (later b a = true ↔ timeDiff a b < 0 ∧ timeDiff a b ≠ -(2 : Int) ^ 47) ∧
    (timeDiff a b = -(2 : Int) ^ 47 → later a b = false ∧ later b a = false ∧ a ≠ b ∧ timeDiff b a = -(2 : Int) ^ 47)

/-- R75, R76: the first slot after a network time is the least time of the station's series later than it, and the
series' first slot where none is left below 2^48; the successor of a slot is the first slot after it, 100,000 ticks on, or
10,656 (stations to 4) or 110,656 ticks on across the wrap. -/
def Obligations.SlotSeries : Prop :=
  ∀ i : Ident,
    (∀ t : Time,
      (firstSlot i t).toNat % 100000 = i.toNat * 2500 ∧
      ((∃ n, t.toNat < n ∧ n < 2 ^ 48 ∧ n % 100000 = i.toNat * 2500) →
        t.toNat < (firstSlot i t).toNat ∧ ∀ n, t.toNat < n → n % 100000 = i.toNat * 2500 → (firstSlot i t).toNat ≤ n) ∧
      ((∀ n, t.toNat < n → n < 2 ^ 48 → n % 100000 ≠ i.toNat * 2500) → (firstSlot i t).toNat = i.toNat * 2500)) ∧
    ∀ slot : Time, slot.toNat % 100000 = i.toNat * 2500 →
      nextSlotOf i slot = firstSlot i slot ∧
      (nextSlotOf i slot - slot).toNat =
        if slot.toNat + 100000 < 2 ^ 48 then 100000 else if i.toNat ≤ 4 then 10656 else 110656

/-- R86: the midpoint of the offset set, whose values are the station's 0 and one for each ADMITTED peer with a fresh
offset: with the values in ascending order, half the sum of the outer two, or of the second and the last but one where
there are four or more, rounded toward zero; with the 0 alone it is 0. -/
def Obligations.MidpointRule : Prop :=
  ∀ (t : TimeUnit) (S : List Int), S.Pairwise (· ≤ ·) →
    S.Perm (0 :: (t.peers.filter fun p => decide (p.state = .admitted) && p.fresh).map fun p => p.offset.toInt) →
    midpoint (0 :: t.votes) =
      (if 4 ≤ S.length then (S.getD 1 0 + S.getD (S.length - 2) 0).tdiv 2
      else (S.getD 0 0 + S.getD (S.length - 1) 0).tdiv 2) ∧
    (S = [0] → midpoint (0 :: t.votes) = 0)

/-- R76, R77, R83, R85, R87 to R90: a beacon slot that local time has reached runs a round: the peers age, the
correction moves by the midpoint, by at most 50 ticks, or in one jump beyond 2,000; the time state and every fresh peer
are judged against the midpoint; every fresh flag clears; and the next slot is the successor, or the first slot ahead
where that is not ahead. A change of the correction is taken as `CorrectionReconverts` states of it, and then a BEACON
is offered in JOINED; with a change of 0 it alone is queued, in the place of one that waits, and nothing else moves. That a
slot exactly 2^47 ticks from local time counts as reached is the model's choice, assumption 33 (DESIGN CHOICE). -/
def Obligations.BeaconSlotRunsRound : Prop :=
  ∀ (dt : Lapse) (s : State) (slot : Time), s.running = true → s.time.nextSlot = some slot →
    later (slot - s.time.correction) (s.elapse dt).time.localTime = false →
    let now := (s.elapse dt).time.localTime
    let aged := s.time.peers.filterMap fun p =>
      if 800000 < timeDiff now p.lastBeacon then none
      else if 300000 < timeDiff now p.lastBeacon then some { p with state := .silent } else some p
    let votes := (aged.filter fun p => decide (p.state = .admitted) && p.fresh).map fun p => p.offset.toInt
    let m := midpoint (0 :: votes)
    let delta : Int := if -50 ≤ m ∧ m ≤ 50 then m else if 50 < m ∧ m ≤ 2000 then 50 else if -2000 ≤ m ∧ m < -50 then -50 else m
    let within (p : Peer) : Prop := -200 ≤ p.offset.toInt - m ∧ p.offset.toInt - m ≤ 200
    ∃ t : State, exec (.beaconSlot dt) s = .next t ∧
      t.time = {
        localTime := now
        phase := (s.elapse dt).time.phase
        correction := s.time.correction + BitVec.ofInt 48 delta
        state :=
          if votes ≠ [] then (if -10 ≤ m ∧ m ≤ 10 then .locked else .locking)
          else if ∃ p ∈ aged, p.state = .admitted then s.time.state else .free
        peers := aged.map fun p => { p with
          fresh := false
          offset := p.offset - BitVec.ofInt 48 delta
          state := match p.fresh, p.state with
            | true, .admitted => if within p then .admitted else .suspect
            | true, .suspect => if within p ∧ 3 ≤ p.inLimit + 1 then .admitted else .suspect
            | _, other => other
          inLimit := match p.fresh, p.state with
            | true, .admitted => if within p then p.inLimit else 0
            | true, .suspect => if within p then p.inLimit + 1 else 0
            | _, _ => p.inLimit }
        nextSlot :=
          let next := nextSlotOf s.ctrl.identity slot
          some (if later next t.netTime then next else firstSlot s.ctrl.identity t.netTime) } ∧
      t.pins = s.pins ∧ t.image = s.image ∧ t.hist.rings = s.hist.rings ∧ t.pending = s.pending ∧
      (s.ctrl.lifecycle ≠ .leaving → t.ctrl.lifecycle = s.ctrl.lifecycle) ∧
      (let corrected := State.correct { s.elapse dt with time := { (s.elapse dt).time with peers := aged } }
        (BitVec.ofInt 48 delta)
      t = State.settle {
        (if s.ctrl.lifecycle = .joined then corrected.offer .time (.beacon none) else corrected) with time := t.time }) ∧
      (delta = 0 → s.ctrl.lifecycle ≠ .joined → t = State.settle { s.elapse dt with time := t.time }) ∧
      (delta = 0 → s.ctrl.lifecycle = .joined →
        match s.link.queue.find? (fun f => match f.content with | .beacon _ => true | _ => false) with
        | some old => old.owner = .time → t = State.settle { s.elapse dt with
            time := t.time
            link := { (s.elapse dt).link with queue := s.link.queue.map fun f =>
              if f.age = old.age then ⟨.time, .beacon none, old.age, 0, false⟩ else f } }
        | none => s.link.count < 12 → t = State.settle { s.elapse dt with
            time := t.time
            link := { (s.elapse dt).link with
              queue := insertFrame ⟨.time, .beacon none, s.link.nextAge, 0, false⟩ s.link.queue
              nextAge := s.link.nextAge + 1 } })

/-- R74, R23, R25, R33, R37, R68: a change of the correction takes its amount from every stored offset; frees every
member-only entry whose retention end it carries into the past; marks missed every pending strobe flag whose instant is no
longer ahead, with no pulse; sets afresh every cadence schedule whose moment is no longer ahead; and begins the closing of
every collection whose deadline has come, here with room for the CLOSEs; and walks the presets at the new correction, as
`PresetDueApplies` states of the walk. No sample and no stamp moves. That a retention end or a deadline exactly 2^47 ticks
from local time counts as in the past is the model's choice, assumption 33 (DESIGN CHOICE). -/
def Obligations.CorrectionReconverts : Prop :=
  ∀ (s : State) (delta : Time), delta ≠ 0 → s.uidsSound = true → s.link.count + s.originCount ≤ 12 →
    let due (t : Time) : Bool := !later (t - (s.time.correction + delta)) s.time.localTime
    let now := s.time.localTime + s.time.correction + delta
    let u := s.correct delta
    u.time = { s.time with
      correction := s.time.correction + delta
      peers := s.time.peers.map fun p => { p with offset := p.offset - delta } } ∧
    u.cap = { s.cap with
      table := (s.cap.table.filter fun e => !(e.origin.isNone && due e.retentionEnd)).map fun e =>
        { e with
          strobe := if e.strobe = .pending ∧ due e.time then .missed else e.strobe
          origin := e.origin.map fun o => { o with
            state := if o.state = .collecting ∧ o.deadline.any due then .closing else o.state } }
      schedules := s.cap.schedules.map fun x =>
        let p := s.image.groups[x.group].period * 10000
        let lead := s.image.cadenceLead * 10000
        let k := (now + BitVec.ofNat 48 lead).toNat / p + 1
        if due (BitVec.ofNat 48 (x.index * p) - BitVec.ofNat 48 lead)
        then { x with index := if k * p < 2 ^ 48 then k else 0 } else x } ∧
    (∀ e ∈ s.cap.table, ∀ o, e.origin = some o → o.state = .collecting → o.deadline.any due = true →
      ∃ f ∈ u.link.queue, f.owner = .entry e.uid ∧ f.content = .close none) ∧
    u.trig = s.trig ∧ u.pins = s.pins ∧ u.ctrl = s.ctrl ∧ u.image = s.image ∧ u.req = s.req ∧
    u.hist.rings = s.hist.rings ∧ u.hist.newest = s.hist.newest ∧ u.hist.nextInstant = s.hist.nextInstant ∧
    (let walked := State.walkPresets { s with time := u.time }
    u.hist = walked.hist ∧ u.chans = walked.chans) ∧
    ((∀ q ∈ s.hist.presets, due q.time = false) → u.hist = s.hist ∧ u.chans = s.chans)

/-! ### History -/

/-- R55: the three results of a resolution on a ring of at most 512 samples one period apart, tested in order: not yet
where no sample is later, STALE where the oldest is later, else the newest sample at or before the time and the one that
follows it, the oldest later one. -/
def Obligations.RingResolution : Prop :=
  ∀ (ring : List Sample) (start l : Time) (period : Nat), 0 < period → period ≤ 1000 → ring.length ≤ 512 →
    (∀ (k : Nat) (x : Sample), ring[k]? = some x → x.time = start + BitVec.ofNat 48 (k * period)) →
    (resolve ring l = .notYet ↔ ∀ x ∈ ring, later x.time l = false) ∧
    (resolve ring l = .stale ↔ ∃ oldest newer, ring = oldest :: newer ∧ later oldest.time l = true) ∧
    ∀ before after, resolve ring l = .pair before after ↔
      ∃ older newer, ring = older ++ before :: after :: newer ∧ (∀ x ∈ older ++ [before], later x.time l = false) ∧
        ∀ x ∈ after :: newer, later x.time l = true

/-- R50 to R54, R15 to R19, R65: a sample instant appends one sample of every active channel, dropping the oldest of a full
ring, empties the touched set, and resolves, oldest first, every WAITING entry whose local instant is earlier: its REPORT,
with the readings of R16 to R18, is queued, here with room; then the due presets are walked, held ones among them, as
`PresetDueApplies` states of the walk. That the instant in LOADING is noted as passed is the model's choice (assumption 19,
DESIGN CHOICE), and that a resolution that answers not yet gives no entry is its inference (assumption 22, DEDUCED). -/
def Obligations.SampleInstantAppends : Prop :=
  (∀ (dt : Lapse) (s : State) (instant : Time), s.running = true → s.hist.nextInstant = some instant →
    later instant (s.elapse dt).time.localTime = false → s.uidsSound = true →
    let answered := s.cap.table.filter fun e =>
      decide (e.member = .waiting) && later instant (e.time - s.time.correction)
    s.link.count + answered.length ≤ 12 →
    ∃ h : History,
      h = { s.hist with
        rings := h.rings, newest := some instant, nextInstant := some (instant + BitVec.ofNat 48 s.image.samplePeriod)
        touched := 0 } ∧
      (∀ i : Chan, h.rings.get i =
        if s.image.modes.get i = .off then s.hist.rings.get i
        else (s.hist.rings.get i).drop ((s.hist.rings.get i).length - 511) ++
          [⟨instant, (s.chans.get i).count, (s.chans.get i).epoch, (s.chans.get i).quality⟩]) ∧
      exec (.sampleInstant dt) s = .next (State.settle (State.walkPresets { s.elapse dt with
        hist := h
        cap := { s.cap with table := s.cap.table.map fun e =>
          if e.member = .waiting ∧ later instant (e.time - s.time.correction) then { e with member := .resolved } else e }
        link := answered.foldl (fun l e =>
          { l with
            nextAge := l.nextAge + 1
            queue := insertFrame ⟨.entry e.uid, .report ⟨e.tag, s.time.state, .none,
              State.readings { s with hist := h } s.image.groups[e.group].map (e.time - s.time.correction)⟩,
              l.nextAge, 0, false⟩ l.queue }) (s.elapse dt).link }))) ∧
  (∀ (dt : Lapse) (s : State), s.ctrl.hold = none → s.ctrl.lifecycle = .loading →
    exec (.sampleInstant dt) s = .next (State.settle { s.elapse dt with
      hist := { s.hist with passed := some (s.elapse dt).time.localTime } })) ∧
  ∀ (s : State) (map : ChanSet) (l : Time),
    ascending (s.readings map l) = true ∧
    ∀ (i : Chan) (x : Reading), ⟨i, x⟩ ∈ s.readings map l ↔ map.getLsbD i.val = true ∧
      match resolve (s.hist.rings.get i) l with
      | .notYet => False
      | .stale => x = .stale
      | .pair b a => ∃ q : Quality,
        x = .sampled q ⟨b.count, (b.time - l).setWidth 16, b.epoch⟩
          (if a.epoch = b.epoch then some ⟨a.count, (a.time - l).setWidth 16⟩ else none) ∧
        (q = .fault ↔ b.quality = .fault ∨ a.quality = .fault) ∧ (q = .good ↔ b.quality = .good ∧ a.quality = .good)

/-- R64 to R68, R106, R111: the walk over the presets, at a due preset, at a sample instant and at a change of the
correction: the presets applied are those that are due and overlap neither the touched set nor any preset before them in
the list. Each leaves the list and touches its channels, which take its value, an epoch one further on, and the
acknowledgement of R106 unless they are FAULT; every other preset stays at its place, and nothing else changes. So a due
preset that overlaps nothing touched is applied and one behind it on its channels is held, and a due preset that overlaps
the touched set is held and nothing changes. -/
def Obligations.PresetDueApplies : Prop :=
  (∀ s : State,
    let l := s.hist.presets
    let applied (k : Nat) : Bool := match l[k]? with
      | some q => !later (q.time - s.time.correction) s.time.localTime && decide (q.chans &&& s.hist.touched = 0) &&
          (l.take k).all fun p => decide (p.chans &&& q.chans = 0)
      | none => false
    let reaches (k : Nat) (i : Chan) : Bool := applied k && l[k]?.any fun q => q.chans.getLsbD i.val
    ∃ (after : Four Channel) (touched : ChanSet),
      s.walkPresets = { s with
        chans := after
        hist := { s.hist with
          presets := (List.range l.length).filterMap fun k => if applied k then none else l[k]?
          touched := touched } } ∧
      ∀ i : Chan,
        touched.getLsbD i.val = (s.hist.touched.getLsbD i.val || (List.range l.length).any fun k => reaches k i) ∧
        ((∀ k, reaches k i = false) → after.get i = s.chans.get i) ∧
        ∀ k q, l[k]? = some q → reaches k i = true →
          let old := s.chans.get i
          let new := after.get i
          new.count = q.value ∧ new.epoch = old.epoch + 1 ∧ new.lastA = old.lastA ∧ new.lastB = old.lastB ∧
          (∀ n, (new.record n).cause = (old.record n).cause) ∧
          if old.quality = .fault then
            new.quality = .fault ∧ new.timer = old.timer ∧ ∀ n, (new.record n).latched = (old.record n).latched
          else
            new.quality = .good ∧ new.timer = none ∧
            ∀ n, (new.record n).latched = ((old.record n).latched && (old.record n).cause)) ∧
  (∀ (dt : Lapse) (s : State), s.running = true →
    exec (.presetDue dt) s = .next (State.settle (s.elapse dt).walkPresets)) ∧
  ∀ (dt : Lapse) (s : State) (p : Preset) (rest : List Preset), s.running = true → s.hist.presets = p :: rest →
    later (p.time - s.time.correction) (s.elapse dt).time.localTime = false →
    (p.chans &&& s.hist.touched = 0 →
      (∀ q ∈ rest, later (q.time - s.time.correction) (s.elapse dt).time.localTime = false →
        q.chans &&& (s.hist.touched ||| p.chans) ≠ 0) →
      ∃ after : Four Channel,
        exec (.presetDue dt) s = .next (State.settle { s.elapse dt with
          chans := after, hist := { s.hist with presets := rest, touched := s.hist.touched ||| p.chans } }) ∧
        ∀ i : Chan,
          let old := s.chans.get i
          let new := after.get i
          if p.chans.getLsbD i.val = false then new = old
          else
            new.count = p.value ∧ new.epoch = old.epoch + 1 ∧ new.lastA = old.lastA ∧ new.lastB = old.lastB ∧
            (∀ n, (new.record n).cause = (old.record n).cause) ∧
            if old.quality = .fault then
              new.quality = .fault ∧ new.timer = old.timer ∧ ∀ n, (new.record n).latched = (old.record n).latched
            else
              new.quality = .good ∧ new.timer = none ∧
              ∀ n, (new.record n).latched = ((old.record n).latched && (old.record n).cause)) ∧
    (p.chans &&& s.hist.touched ≠ 0 →
      (∀ q ∈ rest, later (q.time - s.time.correction) (s.elapse dt).time.localTime = true) →
      exec (.presetDue dt) s = .next (State.settle (s.elapse dt)))

/-! ### Origination and the entries' own events -/

/-- R5, R32, R34, R35: a cadence moment that local time has reached advances the group's index by 1, from the last below 2^48
to 0. Where the station is not elected, the tag is held or declined, or there is no room, nothing else changes; else an
entry with an origin part in CALLING joins the table and its CALL is offered, and in a queue with room it joins that. In a
full table the oldest freeable entry is freed first, and the moment is taken as it is without that entry. The retention
end of a capture 2^47 ticks from now counts from now, and a moment exactly 2^47 ticks from local time counts as reached, by
the model's choice, assumption 33 (DESIGN CHOICE). -/
def Obligations.CadenceMomentSettles : Prop :=
  ∀ (dt : Lapse) (s : State) (g : Group) (x : Schedule), s.ctrl.hold = none → s.ctrl.lifecycle = .joined →
    s.schedule? g = some x →
    let p := s.image.groups[g].period * 10000
    let instant : Time := BitVec.ofNat 48 (x.index * p)
    later (instant - BitVec.ofNat 48 (s.image.cadenceLead * 10000) - s.time.correction)
      (s.elapse dt).time.localTime = false →
    let tag := Tag.cadence g (BitVec.ofNat 16 x.index)
    let elected : Prop := ∀ q ∈ s.time.peers, q.state = .admitted → q.groups.getLsbD g.val = true →
      s.ctrl.identity < q.ident
    let held : Prop := (∃ e ∈ s.cap.table, e.tag = tag) ∨ tag ∈ s.cap.declined
    let noRoom : Prop := 4 ≤ s.originCount ∨ (16 ≤ s.cap.table.length ∧ ∀ e ∈ s.cap.table, e.freeable = false)
    let schedules := s.cap.schedules.map fun y =>
      if y.group = g then { y with index := if (y.index + 1) * p < 2 ^ 48 then y.index + 1 else 0 } else y
    (¬ elected ∨ held ∨ noRoom →
      exec (.cadenceMoment dt g) s = .next (State.settle { s.elapse dt with
        cap := { s.cap with schedules := schedules } })) ∧
    let joined := { s.elapse dt with cap := { s.cap with
      schedules := schedules, nextUid := s.cap.nextUid + 1
      table := s.cap.table ++ [{
        uid := s.cap.nextUid, tag := tag, group := g, time := instant, kind := .cadence
        retentionEnd := laterOf (s.elapse dt).netTime instant + 1000000
        member := .waiting
        strobe := if later (instant - s.time.correction) (s.elapse dt).time.localTime then .pending else .missed
        origin := some ⟨.calling, 0, 0, 0, none, false, none⟩ }] } }
    (elected → ¬ held → s.originCount < 4 → s.cap.table.length = 16 → s.uidsSound = true →
      ∀ older freed newer, s.cap.table = older ++ freed :: newer → (∀ x ∈ older, x.freeable = false) →
        freed.freeable = true →
        exec (.cadenceMoment dt g) s = exec (.cadenceMoment dt g) { s with
          cap := { s.cap with table := older ++ newer }
          link := { s.link with queue := s.link.queue.filter fun f => f.owner != .entry freed.uid } }) ∧
    (elected → ¬ held → s.originCount < 4 → s.cap.table.length < 16 →
      exec (.cadenceMoment dt g) s = .next (State.settle (State.offer joined (.entry s.cap.nextUid)
        (.call ⟨tag, g, instant, .cadence, false⟩)))) ∧
    (elected → ¬ held → s.originCount < 4 → s.cap.table.length < 16 → s.link.count < 12 →
      exec (.cadenceMoment dt g) s = .next (State.settle { joined with
        link := { (s.elapse dt).link with
          nextAge := s.link.nextAge + 1
          queue := insertFrame ⟨.entry s.cap.nextUid, .call ⟨tag, g, instant, .cadence, false⟩, s.link.nextAge, 0,
            false⟩ s.link.queue } }))

/-- R23, R24, R43, R129, R130: the events of an entry and of a strobe that local time has reached: the retention end frees a
member-only entry and withdraws its frames; the collection deadline moves COLLECTING to CLOSING and queues one CLOSE, here
with room; the strobe instant pulses the strobes of the entry's group for their width, a running pulse afresh; and a
pulse end takes its strobe low. Nothing else changes. That a time exactly 2^47 ticks from local time counts as reached is the
model's choice, assumption 33 (DESIGN CHOICE). -/
def Obligations.EntryAndStrobeEvents : Prop :=
  ∀ (dt : Lapse) (s : State),
    let due (t : Time) : Prop := later t (s.elapse dt).time.localTime = false
    (∀ (tag : Tag) (e : Entry), s.tagged? tag = some e → s.uidsSound = true →
      (e.origin = none → due (e.retentionEnd - s.time.correction) →
        exec (.retentionEnd dt tag) s = .next (State.settle { s.elapse dt with
          cap := { s.cap with table := s.cap.table.filter fun x => x != e }
          link := { (s.elapse dt).link with queue := s.link.queue.filter fun f => f.owner != .entry e.uid } })) ∧
      (∀ o d, e.origin = some o → o.state = .collecting → o.deadline = some d → due (d - s.time.correction) →
        s.link.count < 12 →
        exec (.collectionDeadline dt tag) s = .next (State.settle { s.elapse dt with
          cap := { s.cap with table := s.cap.table.map fun x =>
            if x = e then { e with origin := some { o with state := .closing } } else x }
          link := { (s.elapse dt).link with
            nextAge := s.link.nextAge + 1
            queue := insertFrame ⟨.entry e.uid, .close none, s.link.nextAge, 0, false⟩ s.link.queue } })) ∧
      (e.strobe = .pending → due (e.time - s.time.correction) →
        exec (.strobeInstant dt tag) s = .next (State.settle { s.elapse dt with
          cap := { s.cap with
            table := s.cap.table.map fun x => if x = e then { e with strobe := .done } else x
            strobe0 := if s.image.strobe0.group = some e.group
              then ⟨true, some ((s.elapse dt).time.localTime + BitVec.ofNat 48 (s.image.strobe0.width * 10))⟩
              else s.cap.strobe0
            strobe1 := if s.image.strobe1.group = some e.group
              then ⟨true, some ((s.elapse dt).time.localTime + BitVec.ofNat 48 (s.image.strobe1.width * 10))⟩
              else s.cap.strobe1 } }))) ∧
    (∀ d, s.cap.strobe0.pulseEnd = some d → due d →
      exec (.strobePulseEnd dt 0) s = .next (State.settle { s.elapse dt with
        cap := { s.cap with strobe0 := ⟨false, none⟩ } })) ∧
    (∀ d, s.cap.strobe1.pulseEnd = some d → due d →
      exec (.strobePulseEnd dt 1) s = .next (State.settle { s.elapse dt with
        cap := { s.cap with strobe1 := ⟨false, none⟩ } }))

/-- R5, R29, R30, R31, R127: the capture unit takes a fire request. In a full table with a freeable entry, and fewer
than 4 origin parts, the oldest freeable one is freed and the request is taken as it is without it. With 4 origin parts,
or a full table with nothing freeable, the fire is lost and the term's flag set; with the tag held or declined the
sequence advances too; else, in a table and a queue with room, an entry at the stamp's network time joins, its CALL
carries the flag, which clears, the sequence advances, and the entry is resolved at once where the newest sample is
later. Outside JOINED nothing happens. The retention end of a capture 2^47 ticks from now counts from now, by the model's
choice, assumption 33 (DESIGN CHOICE). -/
def Obligations.FireTaken : Prop :=
  ∀ (s : State) (stamp : Time) (k : TermNo),
    let term := s.trig.terms.get k
    let lost : Trigger := { s.trig with terms := s.trig.terms.set k { term with fireLost := true } }
    let tag := Tag.station s.ctrl.identity s.cap.sequence
    let held : Prop := (∃ e ∈ s.cap.table, e.tag = tag) ∨ tag ∈ s.cap.declined
    let g := (s.image.terms.get k).group
    let instant := stamp + s.time.correction
    let answered : Bool := match s.hist.newest with
      | some newest => later newest stamp
      | none => false
    (s.joined = false → s.takeFire stamp k = s) ∧
    (s.joined = true → s.originCount < 4 → s.cap.table.length = 16 → s.uidsSound = true →
      ∀ older freed newer, s.cap.table = older ++ freed :: newer → (∀ x ∈ older, x.freeable = false) →
        freed.freeable = true →
        s.takeFire stamp k = State.takeFire { s with
          cap := { s.cap with table := older ++ newer }
          link := { s.link with queue := s.link.queue.filter fun f => f.owner != .entry freed.uid } } stamp k) ∧
    (s.joined = true →
      4 ≤ s.originCount ∨ (16 ≤ s.cap.table.length ∧ ∀ e ∈ s.cap.table, e.freeable = false) →
      s.takeFire stamp k = { s with trig := lost }) ∧
    (s.joined = true → s.originCount < 4 → s.cap.table.length < 16 → held →
      s.takeFire stamp k = { s with trig := lost, cap := { s.cap with sequence := s.cap.sequence + 1 } }) ∧
    (s.joined = true → s.originCount < 4 → s.cap.table.length < 16 → ¬ held → s.link.count < 11 → s.uidsSound = true →
      s.takeFire stamp k = { s with
        trig := { s.trig with terms := s.trig.terms.set k { term with fireLost := false } }
        cap := { s.cap with
          sequence := s.cap.sequence + 1, nextUid := s.cap.nextUid + 1
          table := s.cap.table ++ [{
            uid := s.cap.nextUid, tag := tag, group := g, time := instant, kind := .triggered
            retentionEnd := laterOf s.netTime instant + 1000000
            member := if answered then .resolved else .waiting
            strobe := .missed
            origin := some ⟨.calling, 0, 0, 0, none, false, some k⟩ }] }
        link :=
          let call : QFrame :=
            ⟨.entry s.cap.nextUid, .call ⟨tag, g, instant, .triggered, term.fireLost⟩, s.link.nextAge, 0, false⟩
          let report : QFrame :=
            ⟨.entry s.cap.nextUid, .report ⟨tag, s.time.state, .none, s.readings s.image.groups[g].map stamp⟩,
              s.link.nextAge + 1, 0, false⟩
          if answered then
            { s.link with
              nextAge := s.link.nextAge + 2, queue := insertFrame report (insertFrame call s.link.queue) }
          else { s.link with nextAge := s.link.nextAge + 1, queue := insertFrame call s.link.queue } })

/-! ### Channels and terms -/

/-- R97 to R101, R116, R120, R122, R125, R126: a step of an active channel. The changed signals take level and stamp; the
decoder moves the count by its mode's rule, or marks a phase skip, unless the channel is FAULT; every judged PATTERN term
of a changed signal and every judged CROSS term of the channel that is crossed take the change, and the terms that fire
hand their requests one after the other, each once. Nothing else changes. That a PATTERN term is judged once on all the
levels of the step, and that the requests come in the order of the operand `first`, then those of the PATTERN terms it does
not name and then those of the CROSS terms, each by term number, are the model's choice, assumption 15 (DESIGN CHOICE), and so is that the fires are taken at the step's own tick, assumption 34
(DESIGN CHOICE). -/
def Obligations.EncoderStepTaken : Prop :=
  ∀ (dt : Lapse) (s : State) (i : Chan) (a b r : Bool) (first : List TermNo), s.running = true →
    s.image.modes.get i ≠ .off → (s.trig.chans.get i).lines ≠ ⟨a, b, r⟩ →
    let now := (s.elapse dt).time.localTime
    let old := s.chans.get i
    let place (a b : Bool) : Nat := if a then (if b then 2 else 1) else if b then 3 else 0
    let turn := (place a b + 4 - place old.lastA old.lastB) % 4
    let edge : Int :=
      if s.image.modes.get i = .quad4 then (if turn = 1 then 1 else if turn = 3 then -1 else 0)
      else if old.lastA = false ∧ a = true then (if old.lastB then 1 else -1) else 0
    let skip : Bool := decide (s.image.modes.get i = .quad4 ∧ turn = 2 ∧ old.quality ≠ .fault)
    let new : Channel := { old with
      count := if old.quality = .fault then old.count else old.count + BitVec.ofInt 32 edge
      quality := if skip then .unconfirmed else old.quality
      timer :=
        if skip then
          (if s.image.quietTime = 0 then none else some (now + BitVec.ofNat 48 (s.image.quietTime * 10000)))
        else old.timer
      lastA := a, lastB := b }
    let take (x : Signal) (level : Bool) : Signal := if x.level = level then x else ⟨level, now⟩
    let signals := s.trig.chans.get i
    let chans := s.trig.chans.set i ⟨take signals.a a, take signals.b b, take signals.r r⟩
    let before := s.trig.levels
    let after := Trigger.levels { s.trig with chans := chans }
    let judged (k : TermNo) : Bool := decide (s.ctrl.lifecycle = .joined) && !(s.trig.terms.get k).blocked
    let fires (k : TermNo) : Bool := judged k && decide ((s.trig.terms.get k).state = .armed) &&
      match (s.image.terms.get k).condition with
      | .none => false
      | .pattern set required =>
        decide ((before ^^^ after) &&& set ≠ 0 ∧ (after ^^^ required) &&& set = 0) && (s.trig.terms.get k).ready
      | .cross chan direction threshold =>
        let up := decide (old.count.toInt < threshold.toInt ∧ threshold.toInt ≤ new.count.toInt)
        let down := decide (threshold.toInt ≤ old.count.toInt ∧ new.count.toInt < threshold.toInt)
        decide (chan = i) && ((up && decide (direction ≠ .down)) || (down && decide (direction ≠ .up)))
    let terms := Four.build fun k =>
      let t := s.trig.terms.get k
      let c := s.image.terms.get k
      { t with
        ready := match c.condition with
          | .pattern set required =>
            if judged k = true ∧ (before ^^^ after) &&& set ≠ 0 then decide ((after ^^^ required) &&& set ≠ 0)
            else t.ready
          | .none | .cross _ _ _ => t.ready
        state :=
          if fires k then
            match c.mode with
            | .single => .disarmed
            | .continuous => if c.holdoff = 0 then .armed else .holdoff (now + BitVec.ofNat 48 (c.holdoff * 10))
          else t.state }
    let crossing (k : TermNo) : Bool := match (s.image.terms.get k).condition with
      | .cross _ _ _ => true
      | .none | .pattern _ _ => false
    let order : List TermNo := first.eraseDups.filter fires ++
      (four.filter fun k => fires k && !first.contains k && !crossing k) ++
      four.filter fun k => fires k && !first.contains k && crossing k
    exec (.encoderStep dt i a b r first) s = .next (State.settle (State.takeFires { s.elapse dt with
      pins := { s.pins with levels := s.pins.levels.set i ⟨a, b, r⟩ }
      trig := { s.trig with chans := chans, terms := terms }
      chans := s.chans.set i new } now order))

/-- R103 to R108: a cause that appears on a monitored line of an active channel sets its record's level and flag; on A or B
it makes the channel FAULT and stops the timer. One that disappears clears the level, keeps the flag, and where it was the
last on A and B takes FAULT to UNCONFIRMED with the timer started. The timer's expiry acknowledges the channel. Nothing
else changes, and on a line or in a state that is not watched only the front end's level does. -/
def Obligations.CausesAndAutoAck : Prop :=
  ∀ (dt : Lapse) (s : State) (i : Chan),
    let now := (s.elapse dt).time.localTime
    let old := s.chans.get i
    (∀ n : Line,
      let watched : Bool := s.running && decide (s.image.modes.get i ≠ .off) && (s.image.monitors.get i).get n
      ((s.pins.causes.get i).get n = false →
        ∃ new : Channel,
          exec (.lineCauseAppears dt i n) s = .next (State.settle { s.elapse dt with
            pins := { s.pins with causes := s.pins.causes.set i ((s.pins.causes.get i).set n true) }
            chans := s.chans.set i new }) ∧
          (watched = false → new = old) ∧
          (watched = true → new.record n = ⟨true, true⟩ ∧ (∀ n', n' ≠ n → new.record n' = old.record n') ∧
            new.count = old.count ∧ new.epoch = old.epoch ∧ new.lastA = old.lastA ∧ new.lastB = old.lastB ∧
            new.quality = (if n = .r then old.quality else .fault) ∧ new.timer = (if n = .r then old.timer else none))) ∧
      ((s.pins.causes.get i).get n = true →
        ∃ new : Channel,
          exec (.lineCauseDisappears dt i n) s = .next (State.settle { s.elapse dt with
            pins := { s.pins with causes := s.pins.causes.set i ((s.pins.causes.get i).set n false) }
            chans := s.chans.set i new }) ∧
          (watched = false → new = old) ∧
          (watched = true → new.record n = ⟨false, (old.record n).latched⟩ ∧
            (∀ n', n' ≠ n → new.record n' = old.record n') ∧ new.count = old.count ∧ new.epoch = old.epoch ∧
            new.lastA = old.lastA ∧ new.lastB = old.lastB ∧
            if n ≠ .r ∧ old.quality = .fault ∧ (n ≠ .a → old.recA.cause = false) ∧ (n ≠ .b → old.recB.cause = false) then
              new.quality = .unconfirmed ∧ new.timer =
                if s.image.quietTime = 0 then none
                else some (now + BitVec.ofNat 48 (s.image.quietTime * 10000))
            else new.quality = old.quality ∧ new.timer = old.timer))) ∧
    (∀ expiry, old.timer = some expiry → s.running = true → later expiry now = false →
      ∃ new : Channel,
        exec (.autoAckTimerExpiry dt i) s = .next (State.settle { s.elapse dt with chans := s.chans.set i new }) ∧
        new.quality = .good ∧ new.timer = none ∧ new.count = old.count ∧ new.epoch = old.epoch ∧
        new.lastA = old.lastA ∧ new.lastB = old.lastB ∧
        ∀ n, new.record n = ⟨(old.record n).cause, (old.record n).latched && (old.record n).cause⟩)

/-- R117, R120, R121, R126: a raw change of a digital input drops the runs that have not ended and starts its own; a run that
ends gives its level to the signal with the stamp of the raw edge, the PATTERN terms of the input are judged, and the fires
are requested with that stamp; a hold-off that expires leaves its term ARMED. Nothing else changes. The list of runs, and
which of them a raw change drops and keeps, are the model's choice, assumption 20 (DESIGN CHOICE), and so is the order of
the requests, the terms the operand `first` names and then the rest by number, assumption 15 (DESIGN CHOICE), and that two
raw changes at one local time are two changes, assumption 28 (DESIGN CHOICE). -/
def Obligations.InputsAndHoldoff : Prop :=
  ∀ (dt : Lapse) (s : State), s.running = true →
    let now := (s.elapse dt).time.localTime
    (∀ (i : InputNo) (level : Bool), s.pins.inputs.get i ≠ level →
      let ended := (s.trig.filters.get i).filter fun x =>
        !later (x.start + BitVec.ofNat 48 (s.image.filters.get i)) now
      exec (.digitalInputRawChange dt i level) s = .next (State.settle { s.elapse dt with
        pins := { s.pins with inputs := s.pins.inputs.set i level }
        trig := { s.trig with filters := s.trig.filters.set i (ended ++ [⟨level, now⟩]) } })) ∧
    (∀ (i : InputNo) (first : List TermNo) (x : FilterRun) (rest : List FilterRun), s.trig.filters.get i = x :: rest →
      later (x.start + BitVec.ofNat 48 (s.image.filters.get i)) now = false →
      let inputs := s.trig.inputs.set i
        (if (s.trig.inputs.get i).level = x.level then s.trig.inputs.get i else ⟨x.level, x.start⟩)
      let before := s.trig.levels
      let after := Trigger.levels { s.trig with inputs := inputs }
      let judged (k : TermNo) : Bool := decide (s.ctrl.lifecycle = .joined) && !(s.trig.terms.get k).blocked
      let fires (k : TermNo) : Bool := judged k && decide ((s.trig.terms.get k).state = .armed) &&
        match (s.image.terms.get k).condition with
        | .pattern set required =>
          decide ((before ^^^ after) &&& set ≠ 0 ∧ (after ^^^ required) &&& set = 0) && (s.trig.terms.get k).ready
        | .none | .cross _ _ _ => false
      let terms := Four.build fun k =>
        let t := s.trig.terms.get k
        let c := s.image.terms.get k
        { t with
          ready := match c.condition with
            | .pattern set required =>
              if judged k = true ∧ (before ^^^ after) &&& set ≠ 0 then decide ((after ^^^ required) &&& set ≠ 0)
              else t.ready
            | .none | .cross _ _ _ => t.ready
          state :=
            if fires k then
              match c.mode with
              | .single => .disarmed
              | .continuous => if c.holdoff = 0 then .armed else .holdoff (now + BitVec.ofNat 48 (c.holdoff * 10))
            else t.state }
      let order : List TermNo := first.eraseDups.filter fires ++ four.filter fun k => fires k && !first.contains k
      exec (.filteredInputChange dt i first) s = .next (State.settle (State.takeFires { s.elapse dt with
        trig := { s.trig with inputs := inputs, filters := s.trig.filters.set i rest, terms := terms } }
        x.start order))) ∧
    ∀ (k : TermNo) (expiry : Time), (s.trig.terms.get k).state = .holdoff expiry → later expiry now = false →
      exec (.holdoffExpiry dt k) s = .next (State.settle { s.elapse dt with
        trig := { s.trig with terms := s.trig.terms.set k { s.trig.terms.get k with state := .armed } } })

/-- R1, R4, R6, R40, R52, R63, R80, R104, R107: what every step keeps of the tables and channels: the capture table's bounds
and tags, an entry's own name, no identity both a responder and a decliner, the peer table in ascending identity, at most
4 presets and 512 samples, the samples of all channels at the same times one period apart, and a channel FAULT exactly
while a cause stands on A or B, GOOD only with their flags clear, its timer running only in UNCONFIRMED. -/
def Obligations.TablesAndChannelsKept : Prop :=
  ∀ s t : State, step s = .next t →
    (s.tableSound = true → t.tableSound = true) ∧ (s.uidsSound = true → t.uidsSound = true) ∧
    (s.uidsSound = true → s.answersSound = true → t.answersSound = true) ∧
    (s.holdSound = true → s.peersSound = true → t.peersSound = true) ∧
    (s.presetsSound = true → t.presetsSound = true) ∧ (s.ringsSound = true → t.ringsSound = true) ∧
    (s.spacingSound = true → t.spacingSound = true) ∧ (s.channelsSound = true → t.channelsSound = true)
end

