-- ==== Sys2Proof/Laws/State.lean ====
section
/-!
SUPPORT. The small lemmas of the state: the four-place record, and one lemma per field for every update of the state that
the commands are made of, so that no later proof unfolds a record update.
-/

namespace Sys2Proof

/-! ### The four-place record -/

@[simp] theorem Four.get_build {α : Type} (f : Fin 4 → α) (i : Fin 4) : (Four.build f).get i = f i := by
  fin_cases i <;> rfl

@[simp] theorem Four.get_all {α : Type} (x : α) (i : Fin 4) : (Four.all x).get i = x := by
  fin_cases i <;> rfl

@[simp] theorem Four.get_set_self {α : Type} (v : Four α) (i : Fin 4) (x : α) : (v.set i x).get i = x := by
  fin_cases i <;> rfl

theorem Four.get_set_of_ne {α : Type} (v : Four α) {i j : Fin 4} (h : j ≠ i) (x : α) : (v.set i x).get j = v.get j := by
  fin_cases i <;> fin_cases j <;> first | rfl | exact absurd rfl h

theorem Four.get_set {α : Type} (v : Four α) (i j : Fin 4) (x : α) :
    (v.set i x).get j = if j = i then x else v.get j := by
  by_cases h : j = i
  · subst h; simp
  · simp [h, Four.get_set_of_ne v h]

@[simp] theorem Four.set_get_self {α : Type} (v : Four α) (i : Fin 4) : v.set i (v.get i) = v := by
  fin_cases i <;> rfl

theorem Four.ext_get {α : Type} {v w : Four α} (h : ∀ i, v.get i = w.get i) : v = w := by
  cases v; cases w
  have h0 := h 0; have h1 := h 1; have h2 := h 2; have h3 := h 3
  simp only [Four.get] at h0 h1 h2 h3
  simp_all

@[simp] theorem Four.build_get {α : Type} (v : Four α) : Four.build v.get = v := Four.ext_get fun i => by simp

theorem mem_four (i : Fin 4) : i ∈ four := by fin_cases i <;> simp [four]

theorem mem_eight (i : Fin 8) : i ∈ eight := by fin_cases i <;> simp [eight]

end Sys2Proof

namespace Sys2Proof.Machine

/-! ### Times -/

theorem addTicks_eq (t : Time) (n : Nat) : addTicks t n = t + BitVec.ofNat 48 n := rfl

theorem State.reached_eq (s : State) (t : Time) : s.reached t = !later t s.time.localTime := rfl

theorem State.reachedNet_eq (s : State) (t : Time) :
    s.reachedNet t = !later (t - s.time.correction) s.time.localTime := rfl

theorem later_irrefl (t : Time) : later t t = false := by simp [later]

/-! ### Elapsed time -/

@[simp] theorem LinkUnit.hear_none (l : LinkUnit) : l.hear none = l := rfl

@[simp] theorem LinkUnit.hear_some (l : LinkUnit) (edge : Time) :
    l.hear (some edge) = { l with receiver := .taking edge, mark := none } := rfl

@[simp] theorem LinkUnit.hear_queue (l : LinkUnit) (edge : Option Time) : (l.hear edge).queue = l.queue := by
  cases edge <;> rfl

@[simp] theorem LinkUnit.hear_flight (l : LinkUnit) (edge : Option Time) : (l.hear edge).flight = l.flight := by
  cases edge <;> rfl

@[simp] theorem LinkUnit.hear_discards (l : LinkUnit) (edge : Option Time) : (l.hear edge).discards = l.discards := by
  cases edge <;> rfl

@[simp] theorem LinkUnit.hear_state (l : LinkUnit) (edge : Option Time) : (l.hear edge).state = l.state := by
  cases edge <;> rfl

@[simp] theorem LinkUnit.hear_nextAge (l : LinkUnit) (edge : Option Time) : (l.hear edge).nextAge = l.nextAge := by
  cases edge <;> rfl

@[simp] theorem LinkUnit.hear_idleCount (l : LinkUnit) (edge : Option Time) : (l.hear edge).idleCount = l.idleCount := by
  cases edge <;> rfl

@[simp] theorem State.watchBus_queue (s : State) (dt : Lapse) : (s.watchBus dt).queue = s.link.queue := by
  unfold State.watchBus; split <;> simp

@[simp] theorem State.watchBus_flight (s : State) (dt : Lapse) : (s.watchBus dt).flight = s.link.flight := by
  unfold State.watchBus; split <;> simp

@[simp] theorem State.watchBus_discards (s : State) (dt : Lapse) : (s.watchBus dt).discards = s.link.discards := by
  unfold State.watchBus; split <;> simp

@[simp] theorem State.watchBus_state (s : State) (dt : Lapse) : (s.watchBus dt).state = s.link.state := by
  unfold State.watchBus; split <;> simp

@[simp] theorem State.watchBus_nextAge (s : State) (dt : Lapse) : (s.watchBus dt).nextAge = s.link.nextAge := by
  unfold State.watchBus; split <;> simp

@[simp] theorem TimeUnit.tick_localTime (t : TimeUnit) (n : Nat) : (t.tick n).localTime = addTicks t.localTime n := rfl

@[simp] theorem TimeUnit.tick_correction (t : TimeUnit) (n : Nat) : (t.tick n).correction = t.correction := rfl

@[simp] theorem TimeUnit.tick_state (t : TimeUnit) (n : Nat) : (t.tick n).state = t.state := rfl

@[simp] theorem TimeUnit.tick_peers (t : TimeUnit) (n : Nat) : (t.tick n).peers = t.peers := rfl

@[simp] theorem TimeUnit.tick_nextSlot (t : TimeUnit) (n : Nat) : (t.tick n).nextSlot = t.nextSlot := rfl

theorem State.elapse_held {s : State} {h : Hold} (dt : Lapse) (hs : s.ctrl.hold = some h) : s.elapse dt = s := by
  simp [State.elapse, hs]

theorem State.elapse_released {s : State} (dt : Lapse) (hs : s.ctrl.hold = none) :
    s.elapse dt = { s with time := s.time.tick dt.ticks, link := s.watchBus dt } := by
  simp [State.elapse, hs]

@[simp] theorem State.elapse_pins (s : State) (dt : Lapse) : (s.elapse dt).pins = s.pins := by
  unfold State.elapse; split <;> rfl

@[simp] theorem State.elapse_image (s : State) (dt : Lapse) : (s.elapse dt).image = s.image := by
  unfold State.elapse; split <;> rfl

@[simp] theorem State.elapse_ctrl (s : State) (dt : Lapse) : (s.elapse dt).ctrl = s.ctrl := by
  unfold State.elapse; split <;> rfl

@[simp] theorem State.elapse_chans (s : State) (dt : Lapse) : (s.elapse dt).chans = s.chans := by
  unfold State.elapse; split <;> rfl

@[simp] theorem State.elapse_hist (s : State) (dt : Lapse) : (s.elapse dt).hist = s.hist := by
  unfold State.elapse; split <;> rfl

@[simp] theorem State.elapse_trig (s : State) (dt : Lapse) : (s.elapse dt).trig = s.trig := by
  unfold State.elapse; split <;> rfl

@[simp] theorem State.elapse_cap (s : State) (dt : Lapse) : (s.elapse dt).cap = s.cap := by
  unfold State.elapse; split <;> rfl

@[simp] theorem State.elapse_queue (s : State) (dt : Lapse) : (s.elapse dt).link.queue = s.link.queue := by
  unfold State.elapse; split <;> simp

@[simp] theorem State.elapse_flight (s : State) (dt : Lapse) : (s.elapse dt).link.flight = s.link.flight := by
  unfold State.elapse; split <;> simp

@[simp] theorem State.elapse_discards (s : State) (dt : Lapse) : (s.elapse dt).link.discards = s.link.discards := by
  unfold State.elapse; split <;> simp

@[simp] theorem State.elapse_linkState (s : State) (dt : Lapse) : (s.elapse dt).link.state = s.link.state := by
  unfold State.elapse; split <;> simp

@[simp] theorem State.elapse_nextAge (s : State) (dt : Lapse) : (s.elapse dt).link.nextAge = s.link.nextAge := by
  unfold State.elapse; split <;> simp

@[simp] theorem State.elapse_sending (s : State) (dt : Lapse) : (s.elapse dt).link.sending = s.link.sending := by
  simp [LinkUnit.sending]

@[simp] theorem State.elapse_count (s : State) (dt : Lapse) : (s.elapse dt).link.count = s.link.count := by
  simp [LinkUnit.count]

/-- While the blocks do not run the link unit stands. -/
theorem State.watchBus_stopped {s : State} (dt : Lapse) (h : s.running = false) : s.watchBus dt = s.link := by
  simp [State.watchBus, h]

/-- R133, R139: what a lapse does to the link unit while the blocks run: the idle count is taken on over its bit times,
and a start bit on the idle bus begins a frame. -/
theorem State.watchBus_running {s : State} (dt : Lapse) {count : Nat} (h : s.running = true)
    (hc : s.link.idleCount = some count) :
    s.watchBus dt =
      LinkUnit.hear { s.link with idleCount := some (idleAfter count (s.dominantIn dt) dt.ticks) }
        ((s.startBit dt count).map (addTicks s.time.localTime)) := by
  simp [State.watchBus, h, hc]

/-- While the receiver is within a frame no start bit begins another. -/
theorem State.startBit_taking {s : State} (dt : Lapse) (count : Nat) {edge : Time} (h : s.link.receiver = .taking edge) :
    s.startBit dt count = none := by
  simp [State.startBit, h]

/-- A bit time is dominant where others drive it so or this station does. -/
theorem State.mem_dominantIn {s : State} {dt : Lapse} {k : Nat} :
    k ∈ s.dominantIn dt ↔ k ∈ dt.dominant ∨ ∃ t ∈ s.link.ownDominant, (t - s.time.localTime).toNat = k := by
  simp [State.dominantIn]

/-- The local times at which this station drives the bus dominant: the dominant bits of its frame, and its error mark. -/
theorem LinkUnit.mem_ownDominant {l : LinkUnit} {t : Time} :
    t ∈ l.ownDominant ↔
      (∃ fl edge k, l.onWire? = some fl ∧ l.receiver = .taking edge ∧ k < 10 * fl.bytes.length ∧
        dominantBit fl.bytes k = true ∧ addTicks edge k = t) ∨
      ∃ m k, l.mark = some m ∧ k < 12 ∧ addTicks m k = t := by
  unfold LinkUnit.ownDominant Config.byteBits Config.markBits
  rcases l.onWire? with _ | fl <;> rcases l.receiver with _ | _ | edge <;> rcases l.mark with _ | m <;>
    simp [and_assoc]

/-- The start bit of a frame: the first bit time of the lapse in which others drive an idle bus dominant. -/
theorem State.startBit_eq_some {s : State} {dt : Lapse} {count k : Nat} :
    s.startBit dt count = some k ↔ (∀ edge, s.link.receiver ≠ .taking edge) ∧
      (k ∈ dt.dominant ∧ k < dt.ticks ∧ 12 ≤ idleAfter count (s.dominantIn dt) k) ∧
      ∀ j ∈ dt.dominant, j < dt.ticks → 12 ≤ idleAfter count (s.dominantIn dt) j → k ≤ j := by
  unfold State.startBit Config.idleBits
  cases s.link.receiver <;> simp [List.min?_eq_some_iff]

/-- With no dominant bit time among the next `n` the count goes on. -/
theorem idleAfter_recessive {count : Nat} {dominant : List Nat} {n : Nat} (h : ∀ k ∈ dominant, n ≤ k) :
    idleAfter count dominant n = count + n := by
  have : (dominant.filter fun k => decide (k < n)) = [] := by
    simp only [List.filter_eq_nil_iff, decide_eq_true_eq]
    intro k hk; have := h k hk; omega
  simp [idleAfter, this]

/-- The count after the last dominant bit time of the next `n`. -/
theorem idleAfter_dominant {count : Nat} {dominant : List Nat} {n last : Nat} (hm : last ∈ dominant) (hl : last < n)
    (h : ∀ k ∈ dominant, k < n → k ≤ last) : idleAfter count dominant n = n - 1 - last := by
  have : (dominant.filter fun k => decide (k < n)).max? = some last := by
    rw [List.max?_eq_some_iff]
    simp only [List.mem_filter, decide_eq_true_eq]
    exact ⟨⟨hm, hl⟩, fun k hk => h k hk.1 hk.2⟩
  simp [idleAfter, this]

@[simp] theorem State.elapse_req (s : State) (dt : Lapse) : (s.elapse dt).req = s.req := by
  unfold State.elapse; split <;> rfl

@[simp] theorem State.elapse_pending (s : State) (dt : Lapse) : (s.elapse dt).pending = s.pending := by
  unfold State.elapse; split <;> rfl

@[simp] theorem State.elapse_correction (s : State) (dt : Lapse) : (s.elapse dt).time.correction = s.time.correction := by
  unfold State.elapse; split <;> rfl

@[simp] theorem State.elapse_state (s : State) (dt : Lapse) : (s.elapse dt).time.state = s.time.state := by
  unfold State.elapse; split <;> rfl

@[simp] theorem State.elapse_peers (s : State) (dt : Lapse) : (s.elapse dt).time.peers = s.time.peers := by
  unfold State.elapse; split <;> rfl

@[simp] theorem State.elapse_nextSlot (s : State) (dt : Lapse) : (s.elapse dt).time.nextSlot = s.time.nextSlot := by
  unfold State.elapse; split <;> rfl

@[simp] theorem State.elapse_released_eq (s : State) (dt : Lapse) : (s.elapse dt).released = s.released := by
  simp [State.released]

@[simp] theorem State.elapse_running (s : State) (dt : Lapse) : (s.elapse dt).running = s.running := by
  simp [State.running]

@[simp] theorem State.elapse_joined (s : State) (dt : Lapse) : (s.elapse dt).joined = s.joined := by
  simp [State.joined]

/-! ### Another link unit -/

@[simp] theorem State.withLink_pins (s : State) (l : LinkUnit) : (s.withLink l).pins = s.pins := rfl

@[simp] theorem State.withLink_image (s : State) (l : LinkUnit) : (s.withLink l).image = s.image := rfl

@[simp] theorem State.withLink_ctrl (s : State) (l : LinkUnit) : (s.withLink l).ctrl = s.ctrl := rfl

@[simp] theorem State.withLink_time (s : State) (l : LinkUnit) : (s.withLink l).time = s.time := rfl

@[simp] theorem State.withLink_chans (s : State) (l : LinkUnit) : (s.withLink l).chans = s.chans := rfl

@[simp] theorem State.withLink_hist (s : State) (l : LinkUnit) : (s.withLink l).hist = s.hist := rfl

@[simp] theorem State.withLink_trig (s : State) (l : LinkUnit) : (s.withLink l).trig = s.trig := rfl

@[simp] theorem State.withLink_cap (s : State) (l : LinkUnit) : (s.withLink l).cap = s.cap := rfl

@[simp] theorem State.withLink_req (s : State) (l : LinkUnit) : (s.withLink l).req = s.req := rfl

@[simp] theorem State.withLink_pending (s : State) (l : LinkUnit) : (s.withLink l).pending = s.pending := rfl

@[simp] theorem State.withLink_link (s : State) (l : LinkUnit) : (s.withLink l).link = l := rfl

/-! ### One entry changed -/

@[simp] theorem State.onEntry_pins (s : State) (uid : Nat) (f : Entry → Entry) : (s.onEntry uid f).pins = s.pins := rfl

@[simp] theorem State.onEntry_image (s : State) (uid : Nat) (f : Entry → Entry) : (s.onEntry uid f).image = s.image := rfl

@[simp] theorem State.onEntry_ctrl (s : State) (uid : Nat) (f : Entry → Entry) : (s.onEntry uid f).ctrl = s.ctrl := rfl

@[simp] theorem State.onEntry_time (s : State) (uid : Nat) (f : Entry → Entry) : (s.onEntry uid f).time = s.time := rfl

@[simp] theorem State.onEntry_chans (s : State) (uid : Nat) (f : Entry → Entry) : (s.onEntry uid f).chans = s.chans := rfl

@[simp] theorem State.onEntry_hist (s : State) (uid : Nat) (f : Entry → Entry) : (s.onEntry uid f).hist = s.hist := rfl

@[simp] theorem State.onEntry_trig (s : State) (uid : Nat) (f : Entry → Entry) : (s.onEntry uid f).trig = s.trig := rfl

@[simp] theorem State.onEntry_link (s : State) (uid : Nat) (f : Entry → Entry) : (s.onEntry uid f).link = s.link := rfl

@[simp] theorem State.onEntry_req (s : State) (uid : Nat) (f : Entry → Entry) : (s.onEntry uid f).req = s.req := rfl

@[simp] theorem State.onEntry_pending (s : State) (uid : Nat) (f : Entry → Entry) : (s.onEntry uid f).pending = s.pending := rfl

@[simp] theorem State.onEntry_table (s : State) (uid : Nat) (f : Entry → Entry) :
    (s.onEntry uid f).cap.table = s.cap.table.map fun e => if e.uid = uid then f e else e := rfl

@[simp] theorem State.onEntry_declined (s : State) (uid : Nat) (f : Entry → Entry) :
    (s.onEntry uid f).cap.declined = s.cap.declined := rfl

@[simp] theorem State.onEntry_schedules (s : State) (uid : Nat) (f : Entry → Entry) :
    (s.onEntry uid f).cap.schedules = s.cap.schedules := rfl

@[simp] theorem State.onEntry_sequence (s : State) (uid : Nat) (f : Entry → Entry) :
    (s.onEntry uid f).cap.sequence = s.cap.sequence := rfl

@[simp] theorem State.onEntry_nextUid (s : State) (uid : Nat) (f : Entry → Entry) :
    (s.onEntry uid f).cap.nextUid = s.cap.nextUid := rfl

/-! ### An entry freed -/

@[simp] theorem State.freeEntry_pins (s : State) (uid : Nat) : (s.freeEntry uid).pins = s.pins := rfl

@[simp] theorem State.freeEntry_image (s : State) (uid : Nat) : (s.freeEntry uid).image = s.image := rfl

@[simp] theorem State.freeEntry_ctrl (s : State) (uid : Nat) : (s.freeEntry uid).ctrl = s.ctrl := rfl

@[simp] theorem State.freeEntry_time (s : State) (uid : Nat) : (s.freeEntry uid).time = s.time := rfl

@[simp] theorem State.freeEntry_chans (s : State) (uid : Nat) : (s.freeEntry uid).chans = s.chans := rfl

@[simp] theorem State.freeEntry_hist (s : State) (uid : Nat) : (s.freeEntry uid).hist = s.hist := rfl

@[simp] theorem State.freeEntry_trig (s : State) (uid : Nat) : (s.freeEntry uid).trig = s.trig := rfl

@[simp] theorem State.freeEntry_req (s : State) (uid : Nat) : (s.freeEntry uid).req = s.req := rfl

@[simp] theorem State.freeEntry_pending (s : State) (uid : Nat) : (s.freeEntry uid).pending = s.pending := rfl

@[simp] theorem State.freeEntry_table (s : State) (uid : Nat) :
    (s.freeEntry uid).cap.table = s.cap.table.filter fun e => e.uid != uid := rfl

@[simp] theorem State.freeEntry_queue (s : State) (uid : Nat) :
    (s.freeEntry uid).link.queue = s.link.queue.filter fun f => decide (f.owner ≠ .entry uid) := rfl

@[simp] theorem State.freeEntry_flight (s : State) (uid : Nat) : (s.freeEntry uid).link.flight = s.link.flight := rfl

@[simp] theorem State.freeEntry_declined (s : State) (uid : Nat) :
    (s.freeEntry uid).cap.declined = s.cap.declined := rfl

/-! ### An entry added -/

@[simp] theorem State.addEntry_pins (s : State) (e : Entry) : (s.addEntry e).pins = s.pins := rfl

@[simp] theorem State.addEntry_image (s : State) (e : Entry) : (s.addEntry e).image = s.image := rfl

@[simp] theorem State.addEntry_ctrl (s : State) (e : Entry) : (s.addEntry e).ctrl = s.ctrl := rfl

@[simp] theorem State.addEntry_time (s : State) (e : Entry) : (s.addEntry e).time = s.time := rfl

@[simp] theorem State.addEntry_chans (s : State) (e : Entry) : (s.addEntry e).chans = s.chans := rfl

@[simp] theorem State.addEntry_hist (s : State) (e : Entry) : (s.addEntry e).hist = s.hist := rfl

@[simp] theorem State.addEntry_trig (s : State) (e : Entry) : (s.addEntry e).trig = s.trig := rfl

@[simp] theorem State.addEntry_link (s : State) (e : Entry) : (s.addEntry e).link = s.link := rfl

@[simp] theorem State.addEntry_req (s : State) (e : Entry) : (s.addEntry e).req = s.req := rfl

@[simp] theorem State.addEntry_pending (s : State) (e : Entry) : (s.addEntry e).pending = s.pending := rfl

@[simp] theorem State.addEntry_table (s : State) (e : Entry) : (s.addEntry e).cap.table = s.cap.table ++ [e] := rfl

@[simp] theorem State.addEntry_nextUid (s : State) (e : Entry) :
    (s.addEntry e).cap.nextUid = s.cap.nextUid + 1 := rfl

/-! ### One term changed -/

@[simp] theorem State.onTerm_pins (s : State) (i : TermNo) (f : Term → Term) : (s.onTerm i f).pins = s.pins := rfl

@[simp] theorem State.onTerm_image (s : State) (i : TermNo) (f : Term → Term) : (s.onTerm i f).image = s.image := rfl

@[simp] theorem State.onTerm_ctrl (s : State) (i : TermNo) (f : Term → Term) : (s.onTerm i f).ctrl = s.ctrl := rfl

@[simp] theorem State.onTerm_time (s : State) (i : TermNo) (f : Term → Term) : (s.onTerm i f).time = s.time := rfl

@[simp] theorem State.onTerm_chans (s : State) (i : TermNo) (f : Term → Term) : (s.onTerm i f).chans = s.chans := rfl

@[simp] theorem State.onTerm_hist (s : State) (i : TermNo) (f : Term → Term) : (s.onTerm i f).hist = s.hist := rfl

@[simp] theorem State.onTerm_cap (s : State) (i : TermNo) (f : Term → Term) : (s.onTerm i f).cap = s.cap := rfl

@[simp] theorem State.onTerm_link (s : State) (i : TermNo) (f : Term → Term) : (s.onTerm i f).link = s.link := rfl

@[simp] theorem State.onTerm_req (s : State) (i : TermNo) (f : Term → Term) : (s.onTerm i f).req = s.req := rfl

@[simp] theorem State.onTerm_pending (s : State) (i : TermNo) (f : Term → Term) : (s.onTerm i f).pending = s.pending := rfl

@[simp] theorem State.onTerm_terms (s : State) (i : TermNo) (f : Term → Term) :
    (s.onTerm i f).trig.terms = s.trig.terms.set i (f (s.trig.terms.get i)) := rfl

@[simp] theorem State.onTerm_levels (s : State) (i : TermNo) (f : Term → Term) :
    (s.onTerm i f).trig.levels = s.trig.levels := rfl

/-! ### A lost fire -/

@[simp] theorem State.setFireLost_pins (s : State) (i : TermNo) : (s.setFireLost i).pins = s.pins := rfl

@[simp] theorem State.setFireLost_image (s : State) (i : TermNo) : (s.setFireLost i).image = s.image := rfl

@[simp] theorem State.setFireLost_ctrl (s : State) (i : TermNo) : (s.setFireLost i).ctrl = s.ctrl := rfl

@[simp] theorem State.setFireLost_time (s : State) (i : TermNo) : (s.setFireLost i).time = s.time := rfl

@[simp] theorem State.setFireLost_chans (s : State) (i : TermNo) : (s.setFireLost i).chans = s.chans := rfl

@[simp] theorem State.setFireLost_hist (s : State) (i : TermNo) : (s.setFireLost i).hist = s.hist := rfl

@[simp] theorem State.setFireLost_cap (s : State) (i : TermNo) : (s.setFireLost i).cap = s.cap := rfl

@[simp] theorem State.setFireLost_link (s : State) (i : TermNo) : (s.setFireLost i).link = s.link := rfl

@[simp] theorem State.setFireLost_req (s : State) (i : TermNo) : (s.setFireLost i).req = s.req := rfl

@[simp] theorem State.setFireLost_pending (s : State) (i : TermNo) : (s.setFireLost i).pending = s.pending := rfl

/-! ### One channel changed -/

@[simp] theorem State.onChannel_pins (s : State) (i : Chan) (f : Channel → Channel) : (s.onChannel i f).pins = s.pins := rfl

@[simp] theorem State.onChannel_image (s : State) (i : Chan) (f : Channel → Channel) : (s.onChannel i f).image = s.image := rfl

@[simp] theorem State.onChannel_ctrl (s : State) (i : Chan) (f : Channel → Channel) : (s.onChannel i f).ctrl = s.ctrl := rfl

@[simp] theorem State.onChannel_time (s : State) (i : Chan) (f : Channel → Channel) : (s.onChannel i f).time = s.time := rfl

@[simp] theorem State.onChannel_hist (s : State) (i : Chan) (f : Channel → Channel) : (s.onChannel i f).hist = s.hist := rfl

@[simp] theorem State.onChannel_trig (s : State) (i : Chan) (f : Channel → Channel) : (s.onChannel i f).trig = s.trig := rfl

@[simp] theorem State.onChannel_cap (s : State) (i : Chan) (f : Channel → Channel) : (s.onChannel i f).cap = s.cap := rfl

@[simp] theorem State.onChannel_link (s : State) (i : Chan) (f : Channel → Channel) : (s.onChannel i f).link = s.link := rfl

@[simp] theorem State.onChannel_req (s : State) (i : Chan) (f : Channel → Channel) : (s.onChannel i f).req = s.req := rfl

@[simp] theorem State.onChannel_pending (s : State) (i : Chan) (f : Channel → Channel) : (s.onChannel i f).pending = s.pending := rfl

@[simp] theorem State.onChannel_chans (s : State) (i : Chan) (f : Channel → Channel) :
    (s.onChannel i f).chans = s.chans.set i (f (s.chans.get i)) := rfl

/-! ### A tag off the declined list -/

@[simp] theorem State.undecline_pins (s : State) (tag : Tag) : (s.undecline tag).pins = s.pins := rfl

@[simp] theorem State.undecline_image (s : State) (tag : Tag) : (s.undecline tag).image = s.image := rfl

@[simp] theorem State.undecline_ctrl (s : State) (tag : Tag) : (s.undecline tag).ctrl = s.ctrl := rfl

@[simp] theorem State.undecline_time (s : State) (tag : Tag) : (s.undecline tag).time = s.time := rfl

@[simp] theorem State.undecline_chans (s : State) (tag : Tag) : (s.undecline tag).chans = s.chans := rfl

@[simp] theorem State.undecline_hist (s : State) (tag : Tag) : (s.undecline tag).hist = s.hist := rfl

@[simp] theorem State.undecline_trig (s : State) (tag : Tag) : (s.undecline tag).trig = s.trig := rfl

@[simp] theorem State.undecline_link (s : State) (tag : Tag) : (s.undecline tag).link = s.link := rfl

@[simp] theorem State.undecline_req (s : State) (tag : Tag) : (s.undecline tag).req = s.req := rfl

@[simp] theorem State.undecline_pending (s : State) (tag : Tag) : (s.undecline tag).pending = s.pending := rfl

@[simp] theorem State.undecline_table (s : State) (tag : Tag) : (s.undecline tag).cap.table = s.cap.table := rfl

/-! ### An entry off the reply list -/

@[simp] theorem State.dropReply_pins (s : State) (id : Nat) : (s.dropReply id).pins = s.pins := rfl

@[simp] theorem State.dropReply_image (s : State) (id : Nat) : (s.dropReply id).image = s.image := rfl

@[simp] theorem State.dropReply_ctrl (s : State) (id : Nat) : (s.dropReply id).ctrl = s.ctrl := rfl

@[simp] theorem State.dropReply_time (s : State) (id : Nat) : (s.dropReply id).time = s.time := rfl

@[simp] theorem State.dropReply_chans (s : State) (id : Nat) : (s.dropReply id).chans = s.chans := rfl

@[simp] theorem State.dropReply_hist (s : State) (id : Nat) : (s.dropReply id).hist = s.hist := rfl

@[simp] theorem State.dropReply_trig (s : State) (id : Nat) : (s.dropReply id).trig = s.trig := rfl

@[simp] theorem State.dropReply_cap (s : State) (id : Nat) : (s.dropReply id).cap = s.cap := rfl

@[simp] theorem State.dropReply_link (s : State) (id : Nat) : (s.dropReply id).link = s.link := rfl

@[simp] theorem State.dropReply_pending (s : State) (id : Nat) : (s.dropReply id).pending = s.pending := rfl

/-! ### The station listens afresh -/

@[simp] theorem State.listenAgain_pins (s : State) : (s.listenAgain).pins = s.pins := rfl

@[simp] theorem State.listenAgain_image (s : State) : (s.listenAgain).image = s.image := rfl

@[simp] theorem State.listenAgain_time (s : State) : (s.listenAgain).time = s.time := rfl

@[simp] theorem State.listenAgain_chans (s : State) : (s.listenAgain).chans = s.chans := rfl

@[simp] theorem State.listenAgain_hist (s : State) : (s.listenAgain).hist = s.hist := rfl

@[simp] theorem State.listenAgain_trig (s : State) : (s.listenAgain).trig = s.trig := rfl

@[simp] theorem State.listenAgain_cap (s : State) : (s.listenAgain).cap = s.cap := rfl

@[simp] theorem State.listenAgain_link (s : State) : (s.listenAgain).link = s.link := rfl

@[simp] theorem State.listenAgain_req (s : State) : (s.listenAgain).req = s.req := rfl

@[simp] theorem State.listenAgain_pending (s : State) : (s.listenAgain).pending = s.pending := rfl

/-! ### The queue of waiting commands -/

@[simp] theorem State.withPending_pins (s : State) (q : List Instr) : (s.withPending q).pins = s.pins := rfl

@[simp] theorem State.withPending_image (s : State) (q : List Instr) : (s.withPending q).image = s.image := rfl

@[simp] theorem State.withPending_ctrl (s : State) (q : List Instr) : (s.withPending q).ctrl = s.ctrl := rfl

@[simp] theorem State.withPending_time (s : State) (q : List Instr) : (s.withPending q).time = s.time := rfl

@[simp] theorem State.withPending_chans (s : State) (q : List Instr) : (s.withPending q).chans = s.chans := rfl

@[simp] theorem State.withPending_hist (s : State) (q : List Instr) : (s.withPending q).hist = s.hist := rfl

@[simp] theorem State.withPending_trig (s : State) (q : List Instr) : (s.withPending q).trig = s.trig := rfl

@[simp] theorem State.withPending_cap (s : State) (q : List Instr) : (s.withPending q).cap = s.cap := rfl

@[simp] theorem State.withPending_link (s : State) (q : List Instr) : (s.withPending q).link = s.link := rfl

@[simp] theorem State.withPending_req (s : State) (q : List Instr) : (s.withPending q).req = s.req := rfl

@[simp] theorem State.withPending_pending (s : State) (q : List Instr) : (s.withPending q).pending = q := rfl

/-! ### The terms built anew -/

@[simp] theorem State.withTerms_pins (s : State) (f : TermNo → Term) : (s.withTerms f).pins = s.pins := rfl

@[simp] theorem State.withTerms_image (s : State) (f : TermNo → Term) : (s.withTerms f).image = s.image := rfl

@[simp] theorem State.withTerms_ctrl (s : State) (f : TermNo → Term) : (s.withTerms f).ctrl = s.ctrl := rfl

@[simp] theorem State.withTerms_time (s : State) (f : TermNo → Term) : (s.withTerms f).time = s.time := rfl

@[simp] theorem State.withTerms_chans (s : State) (f : TermNo → Term) : (s.withTerms f).chans = s.chans := rfl

@[simp] theorem State.withTerms_hist (s : State) (f : TermNo → Term) : (s.withTerms f).hist = s.hist := rfl

@[simp] theorem State.withTerms_cap (s : State) (f : TermNo → Term) : (s.withTerms f).cap = s.cap := rfl

@[simp] theorem State.withTerms_link (s : State) (f : TermNo → Term) : (s.withTerms f).link = s.link := rfl

@[simp] theorem State.withTerms_req (s : State) (f : TermNo → Term) : (s.withTerms f).req = s.req := rfl

@[simp] theorem State.withTerms_pending (s : State) (f : TermNo → Term) : (s.withTerms f).pending = s.pending := rfl

@[simp] theorem State.withTerms_terms (s : State) (f : TermNo → Term) :
    (s.withTerms f).trig.terms = Four.build f := rfl

/-! ### A pulse -/

@[simp] theorem State.pulse_pins (s : State) (g : Group) : (s.pulse g).pins = s.pins := rfl

@[simp] theorem State.pulse_image (s : State) (g : Group) : (s.pulse g).image = s.image := rfl

@[simp] theorem State.pulse_ctrl (s : State) (g : Group) : (s.pulse g).ctrl = s.ctrl := rfl

@[simp] theorem State.pulse_time (s : State) (g : Group) : (s.pulse g).time = s.time := rfl

@[simp] theorem State.pulse_chans (s : State) (g : Group) : (s.pulse g).chans = s.chans := rfl

@[simp] theorem State.pulse_hist (s : State) (g : Group) : (s.pulse g).hist = s.hist := rfl

@[simp] theorem State.pulse_trig (s : State) (g : Group) : (s.pulse g).trig = s.trig := rfl

@[simp] theorem State.pulse_link (s : State) (g : Group) : (s.pulse g).link = s.link := rfl

@[simp] theorem State.pulse_req (s : State) (g : Group) : (s.pulse g).req = s.req := rfl

@[simp] theorem State.pulse_pending (s : State) (g : Group) : (s.pulse g).pending = s.pending := rfl

/-! ### A sample appended -/

@[simp] theorem State.appendSamples_pins (s : State) (t : Time) : (s.appendSamples t).pins = s.pins := rfl

@[simp] theorem State.appendSamples_image (s : State) (t : Time) : (s.appendSamples t).image = s.image := rfl

@[simp] theorem State.appendSamples_ctrl (s : State) (t : Time) : (s.appendSamples t).ctrl = s.ctrl := rfl

@[simp] theorem State.appendSamples_time (s : State) (t : Time) : (s.appendSamples t).time = s.time := rfl

@[simp] theorem State.appendSamples_chans (s : State) (t : Time) : (s.appendSamples t).chans = s.chans := rfl

@[simp] theorem State.appendSamples_trig (s : State) (t : Time) : (s.appendSamples t).trig = s.trig := rfl

@[simp] theorem State.appendSamples_cap (s : State) (t : Time) : (s.appendSamples t).cap = s.cap := rfl

@[simp] theorem State.appendSamples_link (s : State) (t : Time) : (s.appendSamples t).link = s.link := rfl

@[simp] theorem State.appendSamples_req (s : State) (t : Time) : (s.appendSamples t).req = s.req := rfl

@[simp] theorem State.appendSamples_pending (s : State) (t : Time) : (s.appendSamples t).pending = s.pending := rfl

/-! ### The step every command ends with -/

@[simp] theorem State.settle_pins (s : State) : (s.settle).pins = s.pins := rfl

@[simp] theorem State.settle_image (s : State) : (s.settle).image = s.image := rfl

@[simp] theorem State.settle_time (s : State) : (s.settle).time = s.time := rfl

@[simp] theorem State.settle_chans (s : State) : (s.settle).chans = s.chans := rfl

@[simp] theorem State.settle_hist (s : State) : (s.settle).hist = s.hist := rfl

@[simp] theorem State.settle_cap (s : State) : (s.settle).cap = s.cap := rfl

@[simp] theorem State.settle_link (s : State) : (s.settle).link = s.link := rfl

@[simp] theorem State.settle_req (s : State) : (s.settle).req = s.req := rfl

@[simp] theorem State.settle_pending (s : State) : (s.settle).pending = s.pending := rfl

@[simp] theorem State.settle_trig_chans (s : State) : s.settle.trig.chans = s.trig.chans := rfl

@[simp] theorem State.settle_trig_inputs (s : State) : s.settle.trig.inputs = s.trig.inputs := rfl

@[simp] theorem State.settle_trig_filters (s : State) : s.settle.trig.filters = s.trig.filters := rfl

@[simp] theorem State.settle_terms (s : State) : s.settle.trig.terms = s.trackTerms := rfl

@[simp] theorem State.settle_levels (s : State) : s.settle.trig.levels = s.trig.levels := rfl

@[simp] theorem State.settle_hold (s : State) : s.settle.ctrl.hold = s.ctrl.hold := rfl

@[simp] theorem State.settle_lifecycle (s : State) : s.settle.ctrl.lifecycle = s.ctrl.lifecycle := rfl

@[simp] theorem State.settle_resetCause (s : State) : s.settle.ctrl.resetCause = s.ctrl.resetCause := rfl

@[simp] theorem State.settle_haltReason (s : State) : s.settle.ctrl.haltReason = s.ctrl.haltReason := rfl

@[simp] theorem State.settle_readFailures (s : State) : s.settle.ctrl.readFailures = s.ctrl.readFailures := rfl

@[simp] theorem State.settle_listenTimer (s : State) : s.settle.ctrl.listenTimer = s.ctrl.listenTimer := rfl

@[simp] theorem State.settle_monitor (s : State) : s.settle.ctrl.monitor = s.ctrl.monitor := rfl

@[simp] theorem State.settle_identity (s : State) : s.settle.ctrl.identity = s.ctrl.identity := rfl

@[simp] theorem State.settle_syncLine (s : State) : s.settle.ctrl.syncLine = s.syncHolds := rfl

@[simp] theorem State.settle_faultLine (s : State) : s.settle.ctrl.faultLine = s.faultHolds := rfl

end Sys2Proof.Machine
end

