-- ==== Sys2Proof/Laws/Ops.lean ====
section
/-!
SUPPORT. One lemma per shared operation that says once what it can do: the transmit queue and its offers, frames that
are lost, room in the capture table, resolution, fires, the walk over the presets, a change of the correction, the flush,
an arrival, and the step that every command ends with. Callers cite these and unfold nothing.
-/

namespace Sys2Proof.Machine

/-! ### Commands and steps -/

/-- A command's effect answers a next state, and which. -/
@[simp] theorem take_eq_next (dt : Lapse) (f : State → State) (s t : State) :
    take dt f s = .next t ↔ t = (f (s.elapse dt)).settle := by
  simp only [take, Host.Outcome.next.injEq]
  exact eq_comm

/-- What one step can be: the front command, an own event that is due, or one tick. -/
theorem step_cases {s t : State} (h : step s = .next t) :
    (∃ c rest, s.pending = c :: rest ∧ exec c (s.withPending rest) = .next t) ∨
    (∃ c, s.pending = [] ∧ s.dueEvents.head? = some c ∧ exec c s = .next t) ∨
    (s.pending = [] ∧ s.dueEvents.head? = none ∧ t = s.elapse (after 1)) := by
  unfold step at h
  split at h
  · rename_i hp
    unfold idle at h
    split at h
    · rename_i c hc
      exact .inr (.inl ⟨c, hp, hc, h⟩)
    · rename_i hn
      simp only [Host.Outcome.next.injEq] at h
      exact .inr (.inr ⟨hp, hn, h.symm⟩)
  · rename_i c rest hp
    exact .inl ⟨c, rest, hp, h⟩

/-! ### The blocked flags -/

@[simp] theorem Term.track_state (t : Term) (c : Condition) (b j : Bool) (l : BitVec 16) :
    (t.track c b j l).state = t.state := by
  unfold Term.track; split <;> [rfl; split <;> rfl]

@[simp] theorem Term.track_fireLost (t : Term) (c : Condition) (b j : Bool) (l : BitVec 16) :
    (t.track c b j l).fireLost = t.fireLost := by
  unfold Term.track; split <;> [rfl; split <;> rfl]

@[simp] theorem Term.track_blocked (t : Term) (c : Condition) (b j : Bool) (l : BitVec 16) :
    (t.track c b j l).blocked = b := by
  unfold Term.track
  split
  · rename_i h; exact h.symm
  · split <;> simp_all

/-- A term whose flag already stands as it should is left alone. -/
theorem Term.track_of_eq {t : Term} {c : Condition} {b j : Bool} {l : BitVec 16} (h : b = t.blocked) :
    t.track c b j l = t := by simp [Term.track, h]

/-- A state whose lines and flags stand as their conditions do is left alone by the end of a command. -/
theorem State.settle_of_sound {s : State} (h : s.linesSound = true) : s.settle = s := by
  simp only [State.linesSound, Bool.and_eq_true, beq_iff_eq, List.all_eq_true] at h
  obtain ⟨⟨h1, h2⟩, h3⟩ := h
  have ht : s.trackTerms = s.trig.terms := by
    apply Four.ext_get
    intro i
    rw [State.trackTerms, Four.get_build]
    exact Term.track_of_eq (h3 i (mem_four i)).symm
  cases s with
  | mk pins image ctrl time chans hist trig cap link req pending =>
    simp only [State.settle] at *
    rw [ht, ← h1, ← h2]

/-! ### The transmit queue -/

theorem insertFrame_perm (f : QFrame) (q : List QFrame) : (insertFrame f q).Perm (f :: q) := by
  induction q with
  | nil => exact .refl _
  | cons g rest ih =>
    unfold insertFrame
    split
    · exact .refl _
    · exact (ih.cons g).trans (.swap f g rest)

@[simp] theorem mem_insertFrame {f g : QFrame} {q : List QFrame} : g ∈ insertFrame f q ↔ g = f ∨ g ∈ q := by
  rw [(insertFrame_perm f q).mem_iff]; simp

@[simp] theorem length_insertFrame (f : QFrame) (q : List QFrame) : (insertFrame f q).length = q.length + 1 := by
  rw [(insertFrame_perm f q).length_eq]; rfl

theorem QFrame.before_trans {f g h : QFrame} (a : f.before g = true) (b : g.before h = true) : f.before h = true := by
  simp only [QFrame.before, decide_eq_true_eq] at *
  omega

theorem QFrame.before_of_not {f g : QFrame} (a : f.before g = false) (b : f.age ≠ g.age) : g.before f = true := by
  simp only [QFrame.before, decide_eq_true_eq, decide_eq_false_iff_not] at *
  omega

/-- A frame of a new age inserted into an ordered queue leaves it ordered. -/
theorem insertFrame_pairwise {f : QFrame} {q : List QFrame} (h : q.Pairwise fun a b => a.before b = true)
    (hf : ∀ g ∈ q, f.age ≠ g.age) : (insertFrame f q).Pairwise fun a b => a.before b = true := by
  induction q with
  | nil => simp [insertFrame]
  | cons g rest ih =>
    rw [List.pairwise_cons] at h
    unfold insertFrame
    by_cases hb : f.before g = true
    · rw [if_pos hb, List.pairwise_cons]
      refine ⟨fun x hx => ?_, List.pairwise_cons.2 h⟩
      rcases List.mem_cons.1 hx with rfl | hx
      · exact hb
      · exact QFrame.before_trans hb (h.1 x hx)
    · rw [if_neg hb, List.pairwise_cons]
      refine ⟨fun x hx => ?_, ih h.2 fun y hy => hf y (List.mem_cons_of_mem _ hy)⟩
      rcases mem_insertFrame.1 hx with rfl | hx
      · exact QFrame.before_of_not (by simpa using hb) (hf g (List.mem_cons_self ..))
      · exact h.1 x hx

@[simp] theorem LinkUnit.enqueue_flight (l : LinkUnit) (o : Owner) (c : Content) : (l.enqueue o c).flight = l.flight := rfl

@[simp] theorem LinkUnit.enqueue_count (l : LinkUnit) (o : Owner) (c : Content) :
    (l.enqueue o c).count = l.count + 1 := by
  obtain ⟨queue, flight, _, _, _, _, _⟩ := l
  cases flight <;> simp [LinkUnit.count, LinkUnit.enqueue]

@[simp] theorem LinkUnit.replace_count (l : LinkUnit) (old : QFrame) (o : Owner) (c : Content) :
    (l.replace old o c).count = l.count := by
  obtain ⟨queue, flight, _, _, _, _, _⟩ := l
  cases flight <;> simp [LinkUnit.count, LinkUnit.replace]

theorem LinkUnit.withdraw_count_le (l : LinkUnit) (o : Owner) : (l.withdraw o).count ≤ l.count := by
  obtain ⟨queue, flight, _, _, _, _, _⟩ := l
  have := List.length_filter_le (fun f : QFrame => decide (f.owner ≠ o)) queue
  cases flight <;> simpa [LinkUnit.count, LinkUnit.withdraw] using this

/-- The frame an eviction takes stands in the queue and is of a greater class. -/
theorem LinkUnit.victim_mem {l : LinkUnit} {cls : Nat} {v : QFrame} (h : l.victim cls = some v) :
    v ∈ l.queue ∧ cls < v.content.cls := by
  have hw : ∀ (rest : List QFrame) (f : QFrame), rest.foldl QFrame.worse f ∈ f :: rest := by
    intro rest
    induction rest with
    | nil => intro f; simp
    | cons g rest ih =>
      intro f
      have := ih (f.worse g)
      rw [List.foldl_cons]
      rcases List.mem_cons.1 this with h | h
      · rw [h]; unfold QFrame.worse; split <;> simp
      · simp [h]
  unfold LinkUnit.victim LinkUnit.worst at h
  cases hq : l.queue with
  | nil => simp [hq] at h
  | cons f rest =>
    simp only [hq] at h
    split at h
    · rename_i hc
      cases h
      exact ⟨hw rest f, hc⟩
    · cases h

/-- A frame that fits no replacement and finds room is admitted. -/
theorem State.offer_of_room {s : State} {o : Owner} {c : Content} (hp : s.link.predecessor c = none)
    (hr : s.link.count < Config.queueSize) : s.offer o c = s.withLink (s.link.enqueue o c) := by
  simp [State.offer, hp, hr]

@[simp] theorem LinkUnit.predecessor_call (l : LinkUnit) (f : CallFrame) : l.predecessor (.call f) = none := rfl
@[simp] theorem LinkUnit.predecessor_report (l : LinkUnit) (f : ReportFrame) : l.predecessor (.report f) = none := rfl
@[simp] theorem LinkUnit.predecessor_close (l : LinkUnit) (f : Option CloseFrame) :
    l.predecessor (.close f) = none := rfl
@[simp] theorem LinkUnit.predecessor_leave (l : LinkUnit) (r : Byte) : l.predecessor (.leave r) = none := rfl

/-- What an offer can do: replace, be admitted, evict, or be refused. -/
theorem State.offer_cases (s : State) (o : Owner) (c : Content) :
    (∃ old ∈ s.link.queue, s.link.predecessor c = some old ∧
      s.offer o c = (s.withLink (s.link.replace old o c)).lose old .withdrawn) ∨
    (s.link.predecessor c = none ∧ s.link.count < Config.queueSize ∧ s.offer o c = s.withLink (s.link.enqueue o c)) ∨
    (∃ v ∈ s.link.queue, s.link.predecessor c = none ∧ Config.queueSize ≤ s.link.count ∧ c.cls < v.content.cls ∧
      s.link.victim c.cls = some v ∧
      s.offer o c = ((s.withLink (s.link.remove v.age)).lose v .evicted).withLink
        (((s.withLink (s.link.remove v.age)).lose v .evicted).link.enqueue o c)) ∨
    (s.link.predecessor c = none ∧ Config.queueSize ≤ s.link.count ∧ s.link.victim c.cls = none ∧
      s.offer o c = s.lose ⟨o, c, s.link.nextAge, 0, false⟩ .refused) := by
  have hmem : ∀ old, s.link.predecessor c = some old → old ∈ s.link.queue := by
    intro old h
    cases c <;> simp only [LinkUnit.predecessor] at h <;> first | exact List.mem_of_find?_eq_some h | cases h
  unfold State.offer
  cases hp : s.link.predecessor c with
  | some old => exact .inl ⟨old, hmem old hp, rfl, rfl⟩
  | none =>
    by_cases hr : s.link.count < Config.queueSize
    · exact .inr (.inl ⟨rfl, hr, by simp [hr]⟩)
    · cases hv : s.link.victim c.cls with
      | some v =>
        exact .inr (.inr (.inl ⟨v, (LinkUnit.victim_mem hv).1, rfl, by omega, (LinkUnit.victim_mem hv).2, rfl,
          by simp [hr]⟩))
      | none => exact .inr (.inr (.inr ⟨rfl, by omega, rfl, by simp [hr]⟩))

/-! ### A frame that is lost -/

@[simp] theorem State.callLost_pins (s : State) (uid : Nat) : (s.callLost uid).pins = s.pins := by
  unfold State.callLost; split <;> [rfl; split <;> rfl]

@[simp] theorem State.leaveEnded_pins (s : State) : s.leaveEnded.pins = s.pins := by
  unfold State.leaveEnded; split <;> rfl

@[simp] theorem State.lose_pins (s : State) (f : QFrame) (o : Loss) : (s.lose f o).pins = s.pins := by
  unfold State.lose; split <;> (try split) <;> simp

@[simp] theorem State.offer_pins (s : State) (o : Owner) (c : Content) : (s.offer o c).pins = s.pins := by
  rcases s.offer_cases o c with ⟨_, _, _, h⟩ | ⟨_, _, h⟩ | ⟨_, _, _, _, _, _, h⟩ | ⟨_, _, _, h⟩ <;> rw [h] <;> simp

@[simp] theorem State.withdrawDeclined_pins (s : State) (tag : Tag) : (s.withdrawDeclined tag).pins = s.pins := by
  unfold State.withdrawDeclined; split <;> rfl

theorem State.foldl_lose_pins (l : List QFrame) (o : Loss) (s : State) :
    (l.foldl (fun s f => s.lose f o) s).pins = s.pins := by
  induction l generalizing s with
  | nil => rfl
  | cons f rest ih => rw [List.foldl_cons, ih]; simp

@[simp] theorem State.flushLink_pins (s : State) : s.flushLink.pins = s.pins := by
  unfold State.flushLink
  simp only
  split <;> (try split) <;> simp [State.foldl_lose_pins]

@[simp] theorem State.callLost_image (s : State) (uid : Nat) : (s.callLost uid).image = s.image := by
  unfold State.callLost; split <;> [rfl; split <;> rfl]

@[simp] theorem State.leaveEnded_image (s : State) : s.leaveEnded.image = s.image := by
  unfold State.leaveEnded; split <;> rfl

@[simp] theorem State.lose_image (s : State) (f : QFrame) (o : Loss) : (s.lose f o).image = s.image := by
  unfold State.lose; split <;> (try split) <;> simp

@[simp] theorem State.offer_image (s : State) (o : Owner) (c : Content) : (s.offer o c).image = s.image := by
  rcases s.offer_cases o c with ⟨_, _, _, h⟩ | ⟨_, _, h⟩ | ⟨_, _, _, _, _, _, h⟩ | ⟨_, _, _, h⟩ <;> rw [h] <;> simp

@[simp] theorem State.withdrawDeclined_image (s : State) (tag : Tag) : (s.withdrawDeclined tag).image = s.image := by
  unfold State.withdrawDeclined; split <;> rfl

theorem State.foldl_lose_image (l : List QFrame) (o : Loss) (s : State) :
    (l.foldl (fun s f => s.lose f o) s).image = s.image := by
  induction l generalizing s with
  | nil => rfl
  | cons f rest ih => rw [List.foldl_cons, ih]; simp

@[simp] theorem State.flushLink_image (s : State) : s.flushLink.image = s.image := by
  unfold State.flushLink
  simp only
  split <;> (try split) <;> simp [State.foldl_lose_image]

@[simp] theorem State.callLost_time (s : State) (uid : Nat) : (s.callLost uid).time = s.time := by
  unfold State.callLost; split <;> [rfl; split <;> rfl]

@[simp] theorem State.leaveEnded_time (s : State) : s.leaveEnded.time = s.time := by
  unfold State.leaveEnded; split <;> rfl

@[simp] theorem State.lose_time (s : State) (f : QFrame) (o : Loss) : (s.lose f o).time = s.time := by
  unfold State.lose; split <;> (try split) <;> simp

@[simp] theorem State.offer_time (s : State) (o : Owner) (c : Content) : (s.offer o c).time = s.time := by
  rcases s.offer_cases o c with ⟨_, _, _, h⟩ | ⟨_, _, h⟩ | ⟨_, _, _, _, _, _, h⟩ | ⟨_, _, _, h⟩ <;> rw [h] <;> simp

@[simp] theorem State.withdrawDeclined_time (s : State) (tag : Tag) : (s.withdrawDeclined tag).time = s.time := by
  unfold State.withdrawDeclined; split <;> rfl

theorem State.foldl_lose_time (l : List QFrame) (o : Loss) (s : State) :
    (l.foldl (fun s f => s.lose f o) s).time = s.time := by
  induction l generalizing s with
  | nil => rfl
  | cons f rest ih => rw [List.foldl_cons, ih]; simp

@[simp] theorem State.flushLink_time (s : State) : s.flushLink.time = s.time := by
  unfold State.flushLink
  simp only
  split <;> (try split) <;> simp [State.foldl_lose_time]

@[simp] theorem State.callLost_chans (s : State) (uid : Nat) : (s.callLost uid).chans = s.chans := by
  unfold State.callLost; split <;> [rfl; split <;> rfl]

@[simp] theorem State.leaveEnded_chans (s : State) : s.leaveEnded.chans = s.chans := by
  unfold State.leaveEnded; split <;> rfl

@[simp] theorem State.lose_chans (s : State) (f : QFrame) (o : Loss) : (s.lose f o).chans = s.chans := by
  unfold State.lose; split <;> (try split) <;> simp

@[simp] theorem State.offer_chans (s : State) (o : Owner) (c : Content) : (s.offer o c).chans = s.chans := by
  rcases s.offer_cases o c with ⟨_, _, _, h⟩ | ⟨_, _, h⟩ | ⟨_, _, _, _, _, _, h⟩ | ⟨_, _, _, h⟩ <;> rw [h] <;> simp

@[simp] theorem State.withdrawDeclined_chans (s : State) (tag : Tag) : (s.withdrawDeclined tag).chans = s.chans := by
  unfold State.withdrawDeclined; split <;> rfl

theorem State.foldl_lose_chans (l : List QFrame) (o : Loss) (s : State) :
    (l.foldl (fun s f => s.lose f o) s).chans = s.chans := by
  induction l generalizing s with
  | nil => rfl
  | cons f rest ih => rw [List.foldl_cons, ih]; simp

@[simp] theorem State.flushLink_chans (s : State) : s.flushLink.chans = s.chans := by
  unfold State.flushLink
  simp only
  split <;> (try split) <;> simp [State.foldl_lose_chans]

@[simp] theorem State.callLost_hist (s : State) (uid : Nat) : (s.callLost uid).hist = s.hist := by
  unfold State.callLost; split <;> [rfl; split <;> rfl]

@[simp] theorem State.leaveEnded_hist (s : State) : s.leaveEnded.hist = s.hist := by
  unfold State.leaveEnded; split <;> rfl

@[simp] theorem State.lose_hist (s : State) (f : QFrame) (o : Loss) : (s.lose f o).hist = s.hist := by
  unfold State.lose; split <;> (try split) <;> simp

@[simp] theorem State.offer_hist (s : State) (o : Owner) (c : Content) : (s.offer o c).hist = s.hist := by
  rcases s.offer_cases o c with ⟨_, _, _, h⟩ | ⟨_, _, h⟩ | ⟨_, _, _, _, _, _, h⟩ | ⟨_, _, _, h⟩ <;> rw [h] <;> simp

@[simp] theorem State.withdrawDeclined_hist (s : State) (tag : Tag) : (s.withdrawDeclined tag).hist = s.hist := by
  unfold State.withdrawDeclined; split <;> rfl

theorem State.foldl_lose_hist (l : List QFrame) (o : Loss) (s : State) :
    (l.foldl (fun s f => s.lose f o) s).hist = s.hist := by
  induction l generalizing s with
  | nil => rfl
  | cons f rest ih => rw [List.foldl_cons, ih]; simp

@[simp] theorem State.flushLink_hist (s : State) : s.flushLink.hist = s.hist := by
  unfold State.flushLink
  simp only
  split <;> (try split) <;> simp [State.foldl_lose_hist]

@[simp] theorem State.callLost_pending (s : State) (uid : Nat) : (s.callLost uid).pending = s.pending := by
  unfold State.callLost; split <;> [rfl; split <;> rfl]

@[simp] theorem State.leaveEnded_pending (s : State) : s.leaveEnded.pending = s.pending := by
  unfold State.leaveEnded; split <;> rfl

@[simp] theorem State.lose_pending (s : State) (f : QFrame) (o : Loss) : (s.lose f o).pending = s.pending := by
  unfold State.lose; split <;> (try split) <;> simp

@[simp] theorem State.offer_pending (s : State) (o : Owner) (c : Content) : (s.offer o c).pending = s.pending := by
  rcases s.offer_cases o c with ⟨_, _, _, h⟩ | ⟨_, _, h⟩ | ⟨_, _, _, _, _, _, h⟩ | ⟨_, _, _, h⟩ <;> rw [h] <;> simp

@[simp] theorem State.withdrawDeclined_pending (s : State) (tag : Tag) : (s.withdrawDeclined tag).pending = s.pending := by
  unfold State.withdrawDeclined; split <;> rfl

theorem State.foldl_lose_pending (l : List QFrame) (o : Loss) (s : State) :
    (l.foldl (fun s f => s.lose f o) s).pending = s.pending := by
  induction l generalizing s with
  | nil => rfl
  | cons f rest ih => rw [List.foldl_cons, ih]; simp

@[simp] theorem State.flushLink_pending (s : State) : s.flushLink.pending = s.pending := by
  unfold State.flushLink
  simp only
  split <;> (try split) <;> simp [State.foldl_lose_pending]

/-- A withdrawn frame tells only the declined list and the reply list. -/
theorem State.lose_withdrawn (s : State) (f : QFrame) :
    s.lose f .withdrawn =
      match f.owner with
      | .declined tag => s.undecline tag
      | .reply id => s.dropReply id
      | .entry _ | .time | .controller => s := by
  unfold State.lose
  cases f.owner <;> cases f.content <;> simp

/-! ### Room in the capture table -/

/-- What making room can do: nothing where there is room, free the oldest freeable entry of a full table, or fail. -/
theorem State.makeRoom_cases (s : State) :
    (s.cap.table.length < Config.tableSize ∧ s.makeRoom = some s) ∨
    (∃ e ∈ s.cap.table, e.freeable = true ∧ Config.tableSize ≤ s.cap.table.length ∧
      s.cap.table.find? Entry.freeable = some e ∧ s.makeRoom = some (s.freeEntry e.uid)) ∨
    (Config.tableSize ≤ s.cap.table.length ∧ (∀ e ∈ s.cap.table, e.freeable = false) ∧ s.makeRoom = none) := by
  unfold State.makeRoom
  by_cases h : s.cap.table.length < Config.tableSize
  · exact .inl ⟨h, by simp [h]⟩
  · cases hf : s.cap.table.find? Entry.freeable with
    | some e =>
      exact .inr (.inl ⟨e, List.mem_of_find?_eq_some hf, List.find?_some hf, by omega, rfl, by simp [h]⟩)
    | none =>
      refine .inr (.inr ⟨by omega, fun e he => ?_, by simp [h]⟩)
      simpa using List.find?_eq_none.1 hf e he

theorem State.makeRoom_pins {s t : State} (h : s.makeRoom = some t) : t.pins = s.pins := by
  rcases s.makeRoom_cases with ⟨_, e⟩ | ⟨_, _, _, _, _, e⟩ | ⟨_, _, e⟩ <;> rw [e] at h <;> cases h <;> rfl

@[simp] theorem State.resolveEntry_pins (s : State) (uid : Nat) : (s.resolveEntry uid).pins = s.pins := by
  unfold State.resolveEntry; split <;> [rfl; split <;> simp]

@[simp] theorem State.resolveAtOnce_pins (s : State) (e : Entry) : (s.resolveAtOnce e).pins = s.pins := by
  unfold State.resolveAtOnce; split <;> [split <;> simp; rfl]

@[simp] theorem State.resolveAll_pins (s : State) (t : Time) : (s.resolveAll t).pins = s.pins := by
  unfold State.resolveAll
  generalize s.resolvable t = l
  induction l generalizing s with
  | nil => rfl
  | cons u rest ih => rw [List.foldl_cons, ih]; simp

@[simp] theorem State.beginClosing_pins (s : State) (uid : Nat) : (s.beginClosing uid).pins = s.pins := by
  simp [State.beginClosing]

@[simp] theorem State.takeFire_pins (s : State) (stamp : Time) (i : TermNo) : (s.takeFire stamp i).pins = s.pins := by
  unfold State.takeFire
  split; · rfl
  split; · rfl
  split
  · rfl
  · rename_i t ht
    split <;> simp [State.nextSequence, State.originateFire, State.makeRoom_pins ht]

@[simp] theorem State.takeFires_pins (s : State) (stamp : Time) (l : List TermNo) : (s.takeFires stamp l).pins = s.pins := by
  unfold State.takeFires
  induction l generalizing s with
  | nil => rfl
  | cons u rest ih => rw [List.foldl_cons, ih]; simp

theorem State.makeRoom_image {s t : State} (h : s.makeRoom = some t) : t.image = s.image := by
  rcases s.makeRoom_cases with ⟨_, e⟩ | ⟨_, _, _, _, _, e⟩ | ⟨_, _, e⟩ <;> rw [e] at h <;> cases h <;> rfl

@[simp] theorem State.resolveEntry_image (s : State) (uid : Nat) : (s.resolveEntry uid).image = s.image := by
  unfold State.resolveEntry; split <;> [rfl; split <;> simp]

@[simp] theorem State.resolveAtOnce_image (s : State) (e : Entry) : (s.resolveAtOnce e).image = s.image := by
  unfold State.resolveAtOnce; split <;> [split <;> simp; rfl]

@[simp] theorem State.resolveAll_image (s : State) (t : Time) : (s.resolveAll t).image = s.image := by
  unfold State.resolveAll
  generalize s.resolvable t = l
  induction l generalizing s with
  | nil => rfl
  | cons u rest ih => rw [List.foldl_cons, ih]; simp

@[simp] theorem State.beginClosing_image (s : State) (uid : Nat) : (s.beginClosing uid).image = s.image := by
  simp [State.beginClosing]

@[simp] theorem State.takeFire_image (s : State) (stamp : Time) (i : TermNo) : (s.takeFire stamp i).image = s.image := by
  unfold State.takeFire
  split; · rfl
  split; · rfl
  split
  · rfl
  · rename_i t ht
    split <;> simp [State.nextSequence, State.originateFire, State.makeRoom_image ht]

@[simp] theorem State.takeFires_image (s : State) (stamp : Time) (l : List TermNo) : (s.takeFires stamp l).image = s.image := by
  unfold State.takeFires
  induction l generalizing s with
  | nil => rfl
  | cons u rest ih => rw [List.foldl_cons, ih]; simp

theorem State.makeRoom_time {s t : State} (h : s.makeRoom = some t) : t.time = s.time := by
  rcases s.makeRoom_cases with ⟨_, e⟩ | ⟨_, _, _, _, _, e⟩ | ⟨_, _, e⟩ <;> rw [e] at h <;> cases h <;> rfl

@[simp] theorem State.resolveEntry_time (s : State) (uid : Nat) : (s.resolveEntry uid).time = s.time := by
  unfold State.resolveEntry; split <;> [rfl; split <;> simp]

@[simp] theorem State.resolveAtOnce_time (s : State) (e : Entry) : (s.resolveAtOnce e).time = s.time := by
  unfold State.resolveAtOnce; split <;> [split <;> simp; rfl]

@[simp] theorem State.resolveAll_time (s : State) (t : Time) : (s.resolveAll t).time = s.time := by
  unfold State.resolveAll
  generalize s.resolvable t = l
  induction l generalizing s with
  | nil => rfl
  | cons u rest ih => rw [List.foldl_cons, ih]; simp

@[simp] theorem State.beginClosing_time (s : State) (uid : Nat) : (s.beginClosing uid).time = s.time := by
  simp [State.beginClosing]

@[simp] theorem State.takeFire_time (s : State) (stamp : Time) (i : TermNo) : (s.takeFire stamp i).time = s.time := by
  unfold State.takeFire
  split; · rfl
  split; · rfl
  split
  · rfl
  · rename_i t ht
    split <;> simp [State.nextSequence, State.originateFire, State.makeRoom_time ht]

@[simp] theorem State.takeFires_time (s : State) (stamp : Time) (l : List TermNo) : (s.takeFires stamp l).time = s.time := by
  unfold State.takeFires
  induction l generalizing s with
  | nil => rfl
  | cons u rest ih => rw [List.foldl_cons, ih]; simp

theorem State.makeRoom_chans {s t : State} (h : s.makeRoom = some t) : t.chans = s.chans := by
  rcases s.makeRoom_cases with ⟨_, e⟩ | ⟨_, _, _, _, _, e⟩ | ⟨_, _, e⟩ <;> rw [e] at h <;> cases h <;> rfl

@[simp] theorem State.resolveEntry_chans (s : State) (uid : Nat) : (s.resolveEntry uid).chans = s.chans := by
  unfold State.resolveEntry; split <;> [rfl; split <;> simp]

@[simp] theorem State.resolveAtOnce_chans (s : State) (e : Entry) : (s.resolveAtOnce e).chans = s.chans := by
  unfold State.resolveAtOnce; split <;> [split <;> simp; rfl]

@[simp] theorem State.resolveAll_chans (s : State) (t : Time) : (s.resolveAll t).chans = s.chans := by
  unfold State.resolveAll
  generalize s.resolvable t = l
  induction l generalizing s with
  | nil => rfl
  | cons u rest ih => rw [List.foldl_cons, ih]; simp

@[simp] theorem State.beginClosing_chans (s : State) (uid : Nat) : (s.beginClosing uid).chans = s.chans := by
  simp [State.beginClosing]

@[simp] theorem State.takeFire_chans (s : State) (stamp : Time) (i : TermNo) : (s.takeFire stamp i).chans = s.chans := by
  unfold State.takeFire
  split; · rfl
  split; · rfl
  split
  · rfl
  · rename_i t ht
    split <;> simp [State.nextSequence, State.originateFire, State.makeRoom_chans ht]

@[simp] theorem State.takeFires_chans (s : State) (stamp : Time) (l : List TermNo) : (s.takeFires stamp l).chans = s.chans := by
  unfold State.takeFires
  induction l generalizing s with
  | nil => rfl
  | cons u rest ih => rw [List.foldl_cons, ih]; simp

theorem State.makeRoom_hist {s t : State} (h : s.makeRoom = some t) : t.hist = s.hist := by
  rcases s.makeRoom_cases with ⟨_, e⟩ | ⟨_, _, _, _, _, e⟩ | ⟨_, _, e⟩ <;> rw [e] at h <;> cases h <;> rfl

@[simp] theorem State.resolveEntry_hist (s : State) (uid : Nat) : (s.resolveEntry uid).hist = s.hist := by
  unfold State.resolveEntry; split <;> [rfl; split <;> simp]

@[simp] theorem State.resolveAtOnce_hist (s : State) (e : Entry) : (s.resolveAtOnce e).hist = s.hist := by
  unfold State.resolveAtOnce; split <;> [split <;> simp; rfl]

@[simp] theorem State.resolveAll_hist (s : State) (t : Time) : (s.resolveAll t).hist = s.hist := by
  unfold State.resolveAll
  generalize s.resolvable t = l
  induction l generalizing s with
  | nil => rfl
  | cons u rest ih => rw [List.foldl_cons, ih]; simp

@[simp] theorem State.beginClosing_hist (s : State) (uid : Nat) : (s.beginClosing uid).hist = s.hist := by
  simp [State.beginClosing]

@[simp] theorem State.takeFire_hist (s : State) (stamp : Time) (i : TermNo) : (s.takeFire stamp i).hist = s.hist := by
  unfold State.takeFire
  split; · rfl
  split; · rfl
  split
  · rfl
  · rename_i t ht
    split <;> simp [State.nextSequence, State.originateFire, State.makeRoom_hist ht]

@[simp] theorem State.takeFires_hist (s : State) (stamp : Time) (l : List TermNo) : (s.takeFires stamp l).hist = s.hist := by
  unfold State.takeFires
  induction l generalizing s with
  | nil => rfl
  | cons u rest ih => rw [List.foldl_cons, ih]; simp

theorem State.makeRoom_pending {s t : State} (h : s.makeRoom = some t) : t.pending = s.pending := by
  rcases s.makeRoom_cases with ⟨_, e⟩ | ⟨_, _, _, _, _, e⟩ | ⟨_, _, e⟩ <;> rw [e] at h <;> cases h <;> rfl

@[simp] theorem State.resolveEntry_pending (s : State) (uid : Nat) : (s.resolveEntry uid).pending = s.pending := by
  unfold State.resolveEntry; split <;> [rfl; split <;> simp]

@[simp] theorem State.resolveAtOnce_pending (s : State) (e : Entry) : (s.resolveAtOnce e).pending = s.pending := by
  unfold State.resolveAtOnce; split <;> [split <;> simp; rfl]

@[simp] theorem State.resolveAll_pending (s : State) (t : Time) : (s.resolveAll t).pending = s.pending := by
  unfold State.resolveAll
  generalize s.resolvable t = l
  induction l generalizing s with
  | nil => rfl
  | cons u rest ih => rw [List.foldl_cons, ih]; simp

@[simp] theorem State.beginClosing_pending (s : State) (uid : Nat) : (s.beginClosing uid).pending = s.pending := by
  simp [State.beginClosing]

@[simp] theorem State.takeFire_pending (s : State) (stamp : Time) (i : TermNo) : (s.takeFire stamp i).pending = s.pending := by
  unfold State.takeFire
  split; · rfl
  split; · rfl
  split
  · rfl
  · rename_i t ht
    split <;> simp [State.nextSequence, State.originateFire, State.makeRoom_pending ht]

@[simp] theorem State.takeFires_pending (s : State) (stamp : Time) (l : List TermNo) : (s.takeFires stamp l).pending = s.pending := by
  unfold State.takeFires
  induction l generalizing s with
  | nil => rfl
  | cons u rest ih => rw [List.foldl_cons, ih]; simp

/-! ### History -/

/-- R52: a ring never outgrows its size. -/
theorem pushSample_length {ring : List Sample} (h : ring.length ≤ Config.ringSize) (x : Sample) :
    (pushSample ring x).length ≤ Config.ringSize := by
  unfold pushSample
  split <;> simp [Config.ringSize] at * <;> omega

theorem insertPreset_perm (p : Preset) (l : List Preset) : (insertPreset p l).Perm (p :: l) := by
  induction l with
  | nil => exact .refl _
  | cons q rest ih =>
    unfold insertPreset
    split
    · exact .refl _
    · exact (ih.cons q).trans (.swap p q rest)

@[simp] theorem length_insertPreset (p : Preset) (l : List Preset) : (insertPreset p l).length = l.length + 1 := by
  rw [(insertPreset_perm p l).length_eq]; rfl

@[simp] theorem State.walk_pins (s : State) (kept l : List Preset) : (s.walk kept l).pins = s.pins := by
  induction l generalizing s kept with
  | nil => rfl
  | cons p rest ih =>
    unfold State.walk
    split <;> rw [ih]
    rfl

@[simp] theorem State.walkPresets_pins (s : State) : s.walkPresets.pins = s.pins := by simp [State.walkPresets]

@[simp] theorem State.walk_image (s : State) (kept l : List Preset) : (s.walk kept l).image = s.image := by
  induction l generalizing s kept with
  | nil => rfl
  | cons p rest ih =>
    unfold State.walk
    split <;> rw [ih]
    rfl

@[simp] theorem State.walkPresets_image (s : State) : s.walkPresets.image = s.image := by simp [State.walkPresets]

@[simp] theorem State.walk_ctrl (s : State) (kept l : List Preset) : (s.walk kept l).ctrl = s.ctrl := by
  induction l generalizing s kept with
  | nil => rfl
  | cons p rest ih =>
    unfold State.walk
    split <;> rw [ih]
    rfl

@[simp] theorem State.walkPresets_ctrl (s : State) : s.walkPresets.ctrl = s.ctrl := by simp [State.walkPresets]

@[simp] theorem State.walk_time (s : State) (kept l : List Preset) : (s.walk kept l).time = s.time := by
  induction l generalizing s kept with
  | nil => rfl
  | cons p rest ih =>
    unfold State.walk
    split <;> rw [ih]
    rfl

@[simp] theorem State.walkPresets_time (s : State) : s.walkPresets.time = s.time := by simp [State.walkPresets]

@[simp] theorem State.walk_trig (s : State) (kept l : List Preset) : (s.walk kept l).trig = s.trig := by
  induction l generalizing s kept with
  | nil => rfl
  | cons p rest ih =>
    unfold State.walk
    split <;> rw [ih]
    rfl

@[simp] theorem State.walkPresets_trig (s : State) : s.walkPresets.trig = s.trig := by simp [State.walkPresets]

@[simp] theorem State.walk_cap (s : State) (kept l : List Preset) : (s.walk kept l).cap = s.cap := by
  induction l generalizing s kept with
  | nil => rfl
  | cons p rest ih =>
    unfold State.walk
    split <;> rw [ih]
    rfl

@[simp] theorem State.walkPresets_cap (s : State) : s.walkPresets.cap = s.cap := by simp [State.walkPresets]

@[simp] theorem State.walk_link (s : State) (kept l : List Preset) : (s.walk kept l).link = s.link := by
  induction l generalizing s kept with
  | nil => rfl
  | cons p rest ih =>
    unfold State.walk
    split <;> rw [ih]
    rfl

@[simp] theorem State.walkPresets_link (s : State) : s.walkPresets.link = s.link := by simp [State.walkPresets]

@[simp] theorem State.walk_req (s : State) (kept l : List Preset) : (s.walk kept l).req = s.req := by
  induction l generalizing s kept with
  | nil => rfl
  | cons p rest ih =>
    unfold State.walk
    split <;> rw [ih]
    rfl

@[simp] theorem State.walkPresets_req (s : State) : s.walkPresets.req = s.req := by simp [State.walkPresets]

@[simp] theorem State.walk_pending (s : State) (kept l : List Preset) : (s.walk kept l).pending = s.pending := by
  induction l generalizing s kept with
  | nil => rfl
  | cons p rest ih =>
    unfold State.walk
    split <;> rw [ih]
    rfl

@[simp] theorem State.walkPresets_pending (s : State) : s.walkPresets.pending = s.pending := by simp [State.walkPresets]

@[simp] theorem State.walk_rings (s : State) (kept l : List Preset) : (s.walk kept l).hist.rings = s.hist.rings := by
  induction l generalizing s kept with
  | nil => rfl
  | cons p rest ih =>
    unfold State.walk
    split <;> rw [ih]
    rfl

@[simp] theorem State.walkPresets_rings (s : State) : s.walkPresets.hist.rings = s.hist.rings := by
  simp [State.walkPresets]

/-- A walk keeps a part of the list at most, in its order. -/
theorem State.walk_presets (s : State) (kept l : List Preset) :
    ∃ rest : List Preset, rest.Sublist l ∧ (s.walk kept l).hist.presets = kept ++ rest := by
  induction l generalizing s kept with
  | nil => exact ⟨[], .slnil, by simp [State.walk]⟩
  | cons p tail ih =>
    unfold State.walk
    split
    · obtain ⟨rest, h1, h2⟩ := ih (s.applyPreset p) kept
      exact ⟨rest, h1.cons p, h2⟩
    · obtain ⟨rest, h1, h2⟩ := ih s (kept ++ [p])
      exact ⟨p :: rest, h1.cons_cons p, by simpa using h2⟩

/-! ### A change of the correction -/

/-- A change of 0 is none. -/
@[simp] theorem State.correct_zero (s : State) : s.correct 0 = s := by simp [State.correct]

theorem State.foldl_freeEntry_frame (l : List Nat) (s : State) :
    ∃ (cap : Capture) (link : LinkUnit), l.foldl State.freeEntry s = { s with cap := cap, link := link } := by
  induction l generalizing s with
  | nil => exact ⟨s.cap, s.link, rfl⟩
  | cons u rest ih =>
    obtain ⟨cap, link, h⟩ := ih (s.freeEntry u)
    exact ⟨cap, link, by rw [List.foldl_cons, h]; rfl⟩

@[simp] theorem State.takeDeadline_pins (s : State) (uid : Nat) : (s.takeDeadline uid).pins = s.pins := by
  unfold State.takeDeadline; split <;> [split <;> simp; rfl]

@[simp] theorem State.takeDeadlines_pins (s : State) : s.takeDeadlines.pins = s.pins := by
  unfold State.takeDeadlines
  generalize (s.cap.table.filter s.deadlineDue).map Entry.uid = l
  induction l generalizing s with
  | nil => rfl
  | cons u rest ih => rw [List.foldl_cons, ih]; simp

@[simp] theorem State.freeExpired_pins (s : State) : s.freeExpired.pins = s.pins := by
  unfold State.freeExpired
  obtain ⟨_, _, h⟩ := State.foldl_freeEntry_frame ((s.cap.table.filter s.retentionDue).map Entry.uid) s
  rw [h]

@[simp] theorem State.captureCorrected_pins (s : State) : s.captureCorrected.pins = s.pins := by
  simp [State.captureCorrected, State.passSchedules, State.missStrobes]

@[simp] theorem State.takeDeadline_image (s : State) (uid : Nat) : (s.takeDeadline uid).image = s.image := by
  unfold State.takeDeadline; split <;> [split <;> simp; rfl]

@[simp] theorem State.takeDeadlines_image (s : State) : s.takeDeadlines.image = s.image := by
  unfold State.takeDeadlines
  generalize (s.cap.table.filter s.deadlineDue).map Entry.uid = l
  induction l generalizing s with
  | nil => rfl
  | cons u rest ih => rw [List.foldl_cons, ih]; simp

@[simp] theorem State.freeExpired_image (s : State) : s.freeExpired.image = s.image := by
  unfold State.freeExpired
  obtain ⟨_, _, h⟩ := State.foldl_freeEntry_frame ((s.cap.table.filter s.retentionDue).map Entry.uid) s
  rw [h]

@[simp] theorem State.captureCorrected_image (s : State) : s.captureCorrected.image = s.image := by
  simp [State.captureCorrected, State.passSchedules, State.missStrobes]

@[simp] theorem State.takeDeadline_time (s : State) (uid : Nat) : (s.takeDeadline uid).time = s.time := by
  unfold State.takeDeadline; split <;> [split <;> simp; rfl]

@[simp] theorem State.takeDeadlines_time (s : State) : s.takeDeadlines.time = s.time := by
  unfold State.takeDeadlines
  generalize (s.cap.table.filter s.deadlineDue).map Entry.uid = l
  induction l generalizing s with
  | nil => rfl
  | cons u rest ih => rw [List.foldl_cons, ih]; simp

@[simp] theorem State.freeExpired_time (s : State) : s.freeExpired.time = s.time := by
  unfold State.freeExpired
  obtain ⟨_, _, h⟩ := State.foldl_freeEntry_frame ((s.cap.table.filter s.retentionDue).map Entry.uid) s
  rw [h]

@[simp] theorem State.captureCorrected_time (s : State) : s.captureCorrected.time = s.time := by
  simp [State.captureCorrected, State.passSchedules, State.missStrobes]

@[simp] theorem State.takeDeadline_chans (s : State) (uid : Nat) : (s.takeDeadline uid).chans = s.chans := by
  unfold State.takeDeadline; split <;> [split <;> simp; rfl]

@[simp] theorem State.takeDeadlines_chans (s : State) : s.takeDeadlines.chans = s.chans := by
  unfold State.takeDeadlines
  generalize (s.cap.table.filter s.deadlineDue).map Entry.uid = l
  induction l generalizing s with
  | nil => rfl
  | cons u rest ih => rw [List.foldl_cons, ih]; simp

@[simp] theorem State.freeExpired_chans (s : State) : s.freeExpired.chans = s.chans := by
  unfold State.freeExpired
  obtain ⟨_, _, h⟩ := State.foldl_freeEntry_frame ((s.cap.table.filter s.retentionDue).map Entry.uid) s
  rw [h]

@[simp] theorem State.captureCorrected_chans (s : State) : s.captureCorrected.chans = s.chans := by
  simp [State.captureCorrected, State.passSchedules, State.missStrobes]

@[simp] theorem State.takeDeadline_hist (s : State) (uid : Nat) : (s.takeDeadline uid).hist = s.hist := by
  unfold State.takeDeadline; split <;> [split <;> simp; rfl]

@[simp] theorem State.takeDeadlines_hist (s : State) : s.takeDeadlines.hist = s.hist := by
  unfold State.takeDeadlines
  generalize (s.cap.table.filter s.deadlineDue).map Entry.uid = l
  induction l generalizing s with
  | nil => rfl
  | cons u rest ih => rw [List.foldl_cons, ih]; simp

@[simp] theorem State.freeExpired_hist (s : State) : s.freeExpired.hist = s.hist := by
  unfold State.freeExpired
  obtain ⟨_, _, h⟩ := State.foldl_freeEntry_frame ((s.cap.table.filter s.retentionDue).map Entry.uid) s
  rw [h]

@[simp] theorem State.captureCorrected_hist (s : State) : s.captureCorrected.hist = s.hist := by
  simp [State.captureCorrected, State.passSchedules, State.missStrobes]

@[simp] theorem State.takeDeadline_pending (s : State) (uid : Nat) : (s.takeDeadline uid).pending = s.pending := by
  unfold State.takeDeadline; split <;> [split <;> simp; rfl]

@[simp] theorem State.takeDeadlines_pending (s : State) : s.takeDeadlines.pending = s.pending := by
  unfold State.takeDeadlines
  generalize (s.cap.table.filter s.deadlineDue).map Entry.uid = l
  induction l generalizing s with
  | nil => rfl
  | cons u rest ih => rw [List.foldl_cons, ih]; simp

@[simp] theorem State.freeExpired_pending (s : State) : s.freeExpired.pending = s.pending := by
  unfold State.freeExpired
  obtain ⟨_, _, h⟩ := State.foldl_freeEntry_frame ((s.cap.table.filter s.retentionDue).map Entry.uid) s
  rw [h]

@[simp] theorem State.captureCorrected_pending (s : State) : s.captureCorrected.pending = s.pending := by
  simp [State.captureCorrected, State.passSchedules, State.missStrobes]

/-- R74: what a change of the correction makes of the time unit. -/
theorem State.correct_time (s : State) {delta : Time} (h : delta ≠ 0) :
    (s.correct delta).time = { s.time with
      correction := s.time.correction + delta
      peers := s.time.peers.map fun p => { p with offset := p.offset - delta } } := by
  unfold State.correct
  rw [if_neg h]
  simp

@[simp] theorem State.correct_pins (s : State) (delta : Time) : (s.correct delta).pins = s.pins := by
  unfold State.correct; split <;> simp

@[simp] theorem State.correct_image (s : State) (delta : Time) : (s.correct delta).image = s.image := by
  unfold State.correct; split <;> simp

@[simp] theorem State.correct_pending (s : State) (delta : Time) : (s.correct delta).pending = s.pending := by
  unfold State.correct; split <;> simp

@[simp] theorem State.correct_localTime (s : State) (delta : Time) :
    (s.correct delta).time.localTime = s.time.localTime := by
  unfold State.correct; split <;> simp

@[simp] theorem State.correct_rings (s : State) (delta : Time) : (s.correct delta).hist.rings = s.hist.rings := by
  unfold State.correct; split <;> simp

/-! ### The peer table -/

/-- R80: a peer put in its place is found there. -/
theorem mem_putPeer {p q : Peer} {l : List Peer} (h : q ∈ putPeer p l) : q = p ∨ q ∈ l := by
  induction l with
  | nil => simpa [putPeer] using h
  | cons r rest ih =>
    unfold putPeer at h
    split at h
    · simpa using h
    · split at h
      · rcases List.mem_cons.1 h with h | h
        · exact .inl h
        · exact .inr (List.mem_cons_of_mem _ h)
      · rcases List.mem_cons.1 h with h | h
        · exact .inr (h ▸ List.mem_cons_self ..)
        · rcases ih h with h | h
          · exact .inl h
          · exact .inr (List.mem_cons_of_mem _ h)

/-! ### Arrivals -/

/-- What the later of two times can be. -/
theorem laterOf_cases (a b : Time) :
    (later b a = true ∧ laterOf a b = b) ∨ (later b a = false ∧ laterOf a b = a) := by
  unfold laterOf
  cases later b a <;> simp

/-- The receiver takes a frame since the edge exactly while it follows another station's frame in a running station. -/
theorem State.receiving_eq_some {s : State} {edge : Time} :
    s.receiving = some edge ↔ s.link.receiver = .taking edge ∧ s.running = true ∧ s.link.sending = false := by
  unfold State.receiving
  cases s.link.receiver <;> simp [and_comm]

/-- A frame ends as these bytes where the receiver takes it and its last stop bit has passed. -/
theorem State.frameEnds_eq_some {s : State} {bytes : List Byte} {edge : Time} :
    s.frameEnds bytes = some edge ↔
      s.receiving = some edge ∧ s.reached (frameEnd edge bytes.length) = true := by
  unfold State.frameEnds
  cases s.receiving with
  | none => simp
  | some e =>
    by_cases h : s.reached (frameEnd e bytes.length) = true
    · simp only [h, if_true, Option.some.injEq]
      constructor
      · rintro rfl; exact ⟨rfl, h⟩
      · exact fun x => x.1
    · simp only [h, Option.some.injEq]
      constructor
      · intro x; simp at x
      · rintro ⟨rfl, x⟩; exact absurd x h

/-- What an arrival can do: nothing while no frame ends as its bytes, discard an ill-formed frame, nothing where the row
is not the frame's own, go to the identity conflict, or reach its owner with the arrival stamp. -/
theorem State.arrival_cases (s : State) (bytes : List Byte) (mine : Body → Bool)
    (deliver : Time → Frame → State → State) :
    (s.frameEnds bytes = none ∧ s.arrival bytes mine deliver = s) ∨
    ∃ edge, s.frameEnds bytes = some edge ∧
      ((Frame.decode bytes = none ∧ s.arrival bytes mine deliver = s.endReception) ∨
      ∃ f, Frame.decode bytes = some f ∧
        ((mine f.body = false ∧ s.arrival bytes mine deliver = s) ∨
        (mine f.body = true ∧ f.sender = s.ctrl.identity ∧
          s.arrival bytes mine deliver = s.endReception.conflict) ∨
        (mine f.body = true ∧ f.sender ≠ s.ctrl.identity ∧
          s.arrival bytes mine deliver = deliver edge f s.endReception))) := by
  unfold State.arrival
  cases hr : s.frameEnds bytes with
  | none => exact .inl ⟨rfl, rfl⟩
  | some edge =>
    refine .inr ⟨edge, rfl, ?_⟩
    cases hd : Frame.decode bytes with
    | none => exact .inl ⟨rfl, rfl⟩
    | some f =>
      refine .inr ⟨f, rfl, ?_⟩
      cases hm : mine f.body with
      | false => exact .inl ⟨rfl, by simp [hm]⟩
      | true =>
        by_cases hi : f.sender = s.ctrl.identity
        · exact .inr (.inl ⟨rfl, hi, by simp [hm, hi]⟩)
        · exact .inr (.inr ⟨rfl, hi, by simp [hm, hi]⟩)

/-- What a stamped arrival can do: nothing where no frame ends as its bytes with that start edge, else what the arrival
does. -/
theorem State.stampedArrival_cases (s : State) (bytes : List Byte) (edge : Time) (mine : Body → Bool)
    (deliver : Time → Frame → State → State) :
    (s.frameEnds bytes ≠ some edge ∧ s.stampedArrival bytes edge mine deliver = s) ∨
      (s.frameEnds bytes = some edge ∧ s.stampedArrival bytes edge mine deliver = s.arrival bytes mine deliver) := by
  unfold State.stampedArrival
  by_cases h : s.frameEnds bytes = some edge
  · exact .inr ⟨h, if_pos h⟩
  · exact .inl ⟨h, if_neg h⟩

/-- The bus is idle exactly from a count of 12 on. -/
theorem LinkUnit.busIdle_iff (l : LinkUnit) : l.busIdle = true ↔ ∃ n, l.idleCount = some n ∧ 12 ≤ n := by
  unfold LinkUnit.busIdle Config.idleBits
  cases l.idleCount <;> simp

/-- When BUS_IDLE is due. -/
theorem State.idleDue_iff (s : State) :
    s.idleDue = true ↔
      s.running = true ∧ (∃ n, s.link.idleCount = some n ∧ 12 ≤ n) ∧ s.link.receiver = .waiting := by
  simp [State.idleDue, LinkUnit.busIdle_iff, and_assoc]

/-- What BUS_IDLE can do: make the receiver ready with the mark behind it, or nothing. -/
theorem State.becomeIdle_cases (s : State) :
    (s.idleDue = false ∧ s.becomeIdle = s) ∨
      (s.idleDue = true ∧ s.becomeIdle = s.withLink { s.link with receiver := .ready, mark := none }) := by
  unfold State.becomeIdle
  cases h : s.idleDue <;> simp

/-- What a framing error can do: end the reception of a frame, or nothing. -/
theorem State.framingError_cases (kind : FramingKind) (s : State) :
    (s.receiving = none ∧ s.framingError kind = s) ∨
      ∃ edge, s.receiving = some edge ∧
        s.framingError kind = s.withLink { s.link with idleCount := s.link.idleAtLoss kind, receiver := .waiting } := by
  unfold State.framingError
  cases s.receiving <;> simp

/-- The bit that begins now of the frame on the wire. -/
theorem State.bitNow_eq_some {s : State} {fl : Flight} {k : Nat} :
    s.bitNow = some (fl, k) ↔ s.link.onWire? = some fl ∧
      ∃ edge, s.link.receiver = .taking edge ∧ k = (s.time.localTime - edge).toNat ∧ k < 10 * fl.bytes.length := by
  unfold State.bitNow Config.byteBits
  rcases s.link.onWire? with _ | fl' <;> rcases s.link.receiver with _ | _ | edge <;> simp
  constructor
  · rintro ⟨h, rfl, rfl⟩; exact ⟨rfl, rfl, h⟩
  · rintro ⟨rfl, rfl, h⟩; exact ⟨h, rfl, rfl⟩

/-- What can lose arbitration: a frame whose priority byte's bit of now is driven recessive. -/
theorem State.contested_eq_some {s : State} {fl : Flight} :
    s.contested = some fl ↔ ∃ k, s.bitNow = some (fl, k) ∧ k < 10 ∧ dominantBit fl.bytes k = false := by
  unfold State.contested Config.byteBits
  rcases s.bitNow with _ | ⟨fl', k⟩
  · simp
  · by_cases h : k < 10 <;> cases hd : dominantBit fl'.bytes k <;> simp [h, hd]
    all_goals (try rintro rfl; simp [hd])

/-- What can meet a bit error: a frame whose bit of now is past the priority byte or driven dominant. -/
theorem State.erring_eq_some {s : State} {fl : Flight} {dominant : Bool} :
    s.erring = some (fl, dominant) ↔
      ∃ k, s.bitNow = some (fl, k) ∧ dominant = dominantBit fl.bytes k ∧ (k < 10 → dominant = true) := by
  unfold State.erring Config.byteBits
  rcases s.bitNow with _ | ⟨fl', k⟩
  · simp
  · by_cases h : k < 10 <;> cases hd : dominantBit fl'.bytes k <;> simp [h, hd]
    all_goals (try (intros; subst_vars; simp_all))

/-- The own error mark is driven from its first tick on for 12 ticks. -/
theorem State.marking_iff (s : State) :
    s.marking = true ↔ ∃ m, s.link.mark = some m ∧ (s.time.localTime - m).toNat < 12 := by
  unfold State.marking Config.markBits
  cases s.link.mark <;> simp

end Sys2Proof.Machine
end

