-- ==== Sys2Proof/WellFormed.lean ====
section
/-!
DEFINITION. Which commands are well formed: an arrival carries one whole frame of its row's kind, a completed read
carries the image's 103 bytes, an order of fires names no term twice, and the elapsed time is under half the range of
the clock, so that the comparison of times (R72) still tells before from after, and takes in the bit times it speaks of.
The machine answers ill-formed commands too; well-formedness says which ones the outside can send.
-/

namespace Sys2Proof

/-- The bytes make one whole frame by its own length byte: 5 + n bytes, n at most 64 (R178). -/
def wholeFrame (f : List Byte) : Bool :=
  match f with
  | _ :: _ :: n :: _ => decide (n.toNat ≤ Config.maxPayload ∧ f.length = 5 + n.toNat)
  | _ => false

/-- The frame's kind code is `k` (R178). -/
def hasKind (k : Nat) (f : List Byte) : Bool :=
  match f with
  | _ :: b :: _ => decide (b.toNat / 16 = k)
  | _ => false

/-- The kind code of an arrival's row (R178). -/
def Instr.kindCode? : Instr → Option Nat
  | .beaconArrival _ _ _ => some 1
  | .leaveArrival _ _ => some 2
  | .callArrival _ _ => some 3
  | .reportArrival _ _ => some 4
  | .closeArrival _ _ => some 5
  | .presetArrival _ _ => some 6
  | .statusRequest _ _ | .termControlArm _ _ | .termControlDisarm _ _ | .faultAck _ _ | .unknownRequest _ _ => some 7
  | .replyArrival _ _ => some 8
  | .powerOnReset _ | .supplyLowReset _ | .pinReset _ | .resetRelease _ _ _ | .configReadAttempt _ _
  | .listenTimerExpiry _ | .supplyWarning _ | .supplyClear _ | .frameStart _ | .lostArbitration _ | .bitError _
  | .frameSent _ | .quietEnd _ | .beaconSlot _ | .sampleInstant _ | .cadenceMoment _ _ | .retentionEnd _ _
  | .collectionDeadline _ _ | .strobeInstant _ _ | .strobePulseEnd _ _ | .presetDue _ | .encoderStep _ _ _ _ _ _
  | .lineCauseAppears _ _ _ | .lineCauseDisappears _ _ _ | .autoAckTimerExpiry _ _ | .digitalInputRawChange _ _ _
  | .filteredInputChange _ _ _ | .holdoffExpiry _ _ | .furtherResetCondition _ _ | .framingError _ _
  | .busIdle _ => none

/-- The frame check of a command: true where it carries none. -/
def Instr.frameOk (i : Instr) : Bool :=
  match i.frame?, i.kindCode? with
  | some f, some k => wholeFrame f && hasKind k f
  | _, _ => true

/-- The image check of a command: a completed read gave the whole image (R166, R184). -/
def Instr.imageOk : Instr → Bool
  | .configReadAttempt _ (some bytes) => decide (bytes.length = Config.imageSize)
  | _ => true

/-- The order-of-fires check: no term stands twice. -/
def Instr.orderOk : Instr → Bool
  | .encoderStep _ _ _ _ _ first => decide first.Nodup
  | .filteredInputChange _ _ first => decide first.Nodup
  | _ => true

/-- The elapsed-time check. -/
def Instr.elapsedOk (i : Instr) : Bool :=
  decide (i.elapsed.ticks < 2 ^ 47) && i.elapsed.dominant.all fun k => decide (k < i.elapsed.ticks)

/-- A command the outside can send. -/
def Instr.wellFormed (i : Instr) : Bool := i.elapsedOk && i.frameOk && i.imageOk && i.orderOk

end Sys2Proof
end

