-- ==== Sys2Proof/Tests/Slice0.lean ====
section
/-!
SUPPORT. The model's own tests: the well-formedness smoke, the byte forms of the spec's examples, one step of every
command, and for every obligation with hypotheses a state and operands that meet them, clause by clause. Each expected
value comes from the spec's words, worked out by hand.
-/

set_option Elab.async false

namespace Sys2Proof.Tests

open Sys2Proof Sys2Proof.Machine

/-! ### The states the tests start from -/

/-- Channels 0 and 2 QUAD4, channel 1 PULSE-DIR, channel 3 OFF; groups 0 to 3; T0 a PATTERN, T1 and T2 CROSS. -/
def image : Image where
  samplePeriod := 100
  modes := ⟨.quad4, .pulseDir, .quad4, .off⟩
  monitors := ⟨Lines.all true, Lines.all true, Lines.all true, Lines.all false⟩
  quietTime := 5
  filters := ⟨0, 10, 100, 1000⟩
  declared := 0x0F
  groups := #v[⟨3, 20⟩, ⟨1, 0⟩, ⟨2, 30⟩, ⟨7, 20⟩, ⟨0, 0⟩, ⟨0, 0⟩, ⟨0, 0⟩, ⟨0, 0⟩]
  cadenceLead := 5
  collectWindow := 10
  busDelay := 3
  terms := ⟨⟨.pattern 0x8008 0x8008, 1, .continuous, true, 20⟩, ⟨.cross 0 .up 3, 1, .single, true, 0⟩,
    ⟨.cross 1 .either 1, 2, .continuous, false, 0⟩, TermConfig.unused⟩
  strobe0 := ⟨some 0, 50⟩
  strobe1 := ⟨some 1, 80⟩

def controller (l : Lifecycle) (expiry : Option Time) : Controller where
  hold := none
  lifecycle := l
  resetCause := .pin
  haltReason := none
  readFailures := 0
  listenTimer := expiry
  monitor := .normal
  identity := 5
  syncLine := false
  faultLine := l == .halted || l == .muted

/-- Station 5 at local time 5,000,000, 5,000,000 ticks after its release, with two samples of every active channel and an
idle bus. -/
def station (l : Lifecycle) : State where
  pins := Pins.quiet
  image := image
  ctrl := controller l (if l = .listening then some 5000100 else none)
  time := ⟨5000000, 0, 0, .locking, [], some 5012500⟩
  chans := Four.all Channel.reset
  hist := {
    rings := ⟨[⟨4999900, 7, 0, .good⟩, ⟨5000000, 9, 0, .unconfirmed⟩], [⟨4999900, 0, 0, .good⟩, ⟨5000000, 0, 1, .good⟩],
      [⟨4999900, 0, 0, .good⟩, ⟨5000000, 0, 0, .good⟩], []⟩
    newest := some 5000000, nextInstant := some 5000100, passed := none, presets := [], touched := 0 }
  trig := {
    chans := Four.all ⟨Signal.reset, Signal.reset, Signal.reset⟩
    inputs := Four.all Signal.reset
    filters := Four.all []
    terms := ⟨⟨.armed, false, true, false⟩, ⟨.armed, false, false, false⟩, ⟨.disarmed, false, false, false⟩, Term.reset⟩ }
  cap := Capture.reset
  link := { LinkUnit.reset with idleCount := some 12, receiver := .ready }
  req := RequestUnit.reset
  pending := []

def joined : State := station .joined

/-- A state whose receiver has been taking a frame for 700 ticks, the length of 70 bytes. -/
def hearing (s : State) : State := { s with link := { s.link with idleCount := some 0, receiver := .taking 4999300 } }

def onAir : State := hearing joined

def loading : State := { State.reset with ctrl := controller .loading none }

def withPeers (s : State) (peers : List Peer) : State := { s with time := { s.time with peers := peers } }

def withEntries (s : State) (table : List Entry) : State :=
  { s with cap := { s.cap with table := table, nextUid := 100 } }

def withQueue (s : State) (queue : List QFrame) : State :=
  { s with link := { s.link with queue := queue, nextAge := 100 } }

/-- A frame in flight that goes out as the bytes 4Ch and 00h, the bits 0010011001 and 0000000001 with their start and stop
bits, and where its bits go out, begun now. -/
def withFlight (s : State) (f : QFrame) (onWire finishing : Bool) : State :=
  let t := if onWire then { s with link := { s.link with idleCount := some 0, receiver := .taking 5000000 } } else s
  { t with link := { t.link with flight := some ⟨f, [0x4C, 0x00], onWire, finishing⟩, nextAge := 100 } }

def withPresets (s : State) (presets : List Preset) : State := { s with hist := { s.hist with presets := presets } }

def peer (i : Ident) (x : PeerState) (offset : Time) : Peer := ⟨i, x, 4990000, offset, true, 2, 0, 0xFF, .locked⟩

/-- A TRIGGERED entry of station 5's for group 1, its capture time at 5,000,050. -/
def ownEntry (uid : Nat) (x : OriginState) : Entry where
  uid := uid
  tag := .station 5 (BitVec.ofNat 16 uid)
  group := 1
  time := 5000050
  kind := .triggered
  retentionEnd := 6000050
  member := .waiting
  strobe := .missed
  origin := some ⟨x, 0b101000, 0, 0, if x = .calling then none else some 5100000, false, some 1⟩

def memberEntry (uid : Nat) (x : MemberState) : Entry where
  uid := uid
  tag := .cadence 0 (BitVec.ofNat 16 uid)
  group := 0
  time := 5000050
  kind := .cadence
  retentionEnd := 6000050
  member := x
  strobe := .pending
  origin := none

def callOf (e : Entry) : QFrame := ⟨.entry e.uid, .call ⟨e.tag, e.group, e.time, e.kind, false⟩, e.uid, 0, false⟩

def closeOfEntry (e : Entry) : QFrame := ⟨.entry e.uid, .close none, e.uid, 0, false⟩

def reportOfEntry (e : Entry) : QFrame :=
  ⟨.entry e.uid, .report ⟨e.tag, .locking, .none, []⟩, e.uid + 20, 0, false⟩

def beacon : QFrame := ⟨.time, .beacon none, 40, 0, false⟩

def leave : QFrame := ⟨.controller, .leave 1, 41, 0, false⟩

def declinedFrame : QFrame := ⟨.declined (.cadence 0 9), .report ⟨.cadence 0 9, .locking, .far, []⟩, 42, 0, false⟩

def reply (id : Nat) : QFrame := ⟨.reply id, .reply 9 none, 50 + id, 0, false⟩

/-- The bytes of a frame from station `i`. -/
def bytes (i : Ident) (b : Body) : List Byte := Frame.encode ⟨1, i, b⟩

/-- A next state with a property. -/
def nextHas (o : Host.Outcome State Fault Refusal) (p : State → Bool) : Bool :=
  match o with
  | .next t => p t
  | .fault _ => false
  | .refused _ => false

/-! ### Well-formedness: each check refuses an ill-formed term -/

theorem test_wf_elapsed : (Instr.busIdle (after (2 ^ 47))).elapsedOk = false ∧ (Instr.busIdle ⟨2 ^ 47 - 1, [0]⟩).wellFormed = true ∧
    (Instr.busIdle ⟨3, [3]⟩).elapsedOk = false := by
  decide +kernel

theorem test_wf_frame_length : (Instr.leaveArrival (after 0) [0x09, 0x20, 1, 1, 0]).frameOk = false := by decide +kernel

theorem test_wf_frame_kind : (Instr.leaveArrival (after 0) [0x09, 0x30, 1, 1, 0, 0]).frameOk = false ∧
    (Instr.leaveArrival (after 0) [0x09, 0x20, 1, 1, 0, 0]).frameOk = true := by decide +kernel

theorem test_wf_image : (Instr.configReadAttempt (after 0) (some [1, 2, 3])).imageOk = false := by decide +kernel

theorem test_wf_order : (Instr.encoderStep (after 0) 0 true true true [1, 1]).orderOk = false ∧
    (Instr.filteredInputChange (after 0) 0 [1, 2, 1]).orderOk = false := by decide +kernel

/-! ### Byte forms -/

/-- Section 10.1's check value: the nine bytes 31h to 39h give 29B1h. -/
theorem test_crc_check_value : crc16 [0x31, 0x32, 0x33, 0x34, 0x35, 0x36, 0x37, 0x38, 0x39] = 0x29B1 := by decide +kernel

def exampleReport : Frame := ⟨1, 9, .report ⟨.station 20 417, .locked, .none,
  [⟨0, .sampled .good ⟨10452, -300, 7⟩ (some ⟨10455, 200⟩)⟩, ⟨1, .sampled .good ⟨88100, -300, 3⟩ none⟩]⟩⟩

/-- Chapter 10's example, byte by byte, but for its two CRC bytes. -/
def exampleBytes : List Byte := [0x29, 0x40, 0x1D, 0x00, 0x14, 0x01, 0xA1, 0x02, 0x00, 0x02, 0x08, 0x00, 0x00, 0x28, 0xD4,
  0xFE, 0xD4, 0x07, 0x00, 0x00, 0x28, 0xD7, 0x00, 0xC8, 0x40, 0x00, 0x01, 0x58, 0x24, 0xFE, 0xD4, 0x03]

theorem test_report_example_encodes : exampleReport.encode.take 32 = exampleBytes ∧ exampleReport.encode.length = 34 := by
  decide +kernel

theorem test_report_example_decodes :
    Frame.decode (exampleBytes ++ bytes2 (crc16 (exampleBytes.drop 1))) = some exampleReport := by decide +kernel

/-- A frame of payload `p` whose priority byte and kind byte are given, closed with its CRC. -/
def closed (b : List Byte) : List Byte := b ++ bytes2 (crc16 (b.drop 1))

/-- R180, written out: a BEACON of class 2 from station 12: stamp 256, groups 0 and 2, JOINED, LOCKED, PIN. -/
theorem test_beacon_bytes : Frame.decode (closed [0x4C, 0x10, 10, 0, 0, 0, 0, 1, 0, 0x05, 3, 2, 1]) =
    some ⟨2, 12, .beacon ⟨256, 5, .joined, .locked, .pin⟩⟩ := by decide +kernel

/-- R181, written out: a CALL of class 0 from station 3 for cadence tag (2, 258), group 2, at 65,536. -/
theorem test_call_bytes : Frame.decode (closed [0x03, 0x30, 13, 1, 2, 1, 2, 2, 0, 0, 0, 1, 0, 0, 1, 0]) =
    some ⟨0, 3, .call ⟨.cadence 2 258, 2, 65536, .cadence, false⟩⟩ := by decide +kernel

/-- R181, written out: a CLOSE of class 0 from station 3, PARTIAL: responders 1 and 3, no decliner, 5 missing. -/
theorem test_close_bytes : Frame.decode (closed [0x03, 0x50, 17, 0, 3, 0, 7, 1, 0, 0, 0, 0x0A, 0, 0, 0, 0, 0, 0, 0, 0x20]) =
    some ⟨0, 3, .close ⟨.station 3 7, false, 0x0A, 0, 0x20⟩⟩ := by decide +kernel

/-- R180, written out: a PRESET for group 1 at 255 with value −2, and a REQUEST to station 5, kind 3, channels 0 and 2. -/
theorem test_preset_and_request_bytes :
    Frame.decode (closed [0x1E, 0x60, 11, 1, 0, 0, 0, 0, 0, 0xFF, 0xFF, 0xFF, 0xFF, 0xFE]) =
      some ⟨0, 30, .preset ⟨1, 255, -2⟩⟩ ∧
    Frame.decode (closed [0x1E, 0x70, 4, 5, 3, 5, 0]) = some ⟨0, 30, .request ⟨5, 3, 5, 0⟩⟩ ∧
    (RequestFrame.read ⟨5, 3, 5, 0⟩) = .faultAck 5 := by decide +kernel

/-- R140: a set bit 7, an unknown kind, sender 0, a wrong CRC and a wrong length are each ill-formed. -/
theorem test_ill_formed_frames :
    Frame.decode (closed [0x89, 0x20, 1, 1]) = none ∧ Frame.decode (closed [0x09, 0x90, 1, 1]) = none ∧
    Frame.decode (closed [0x00, 0x20, 1, 1]) = none ∧ Frame.decode [0x09, 0x20, 1, 1, 0, 0] = none ∧
    Frame.decode (closed [0x09, 0x20, 2, 1, 1]) = none ∧
    Frame.decode (closed [0x09, 0x20, 1, 1]) = some ⟨0, 9, .leave 1⟩ := by decide +kernel

/-- R184, written out: an image of 103 bytes with its check field. -/
def imageHead : List Byte :=
  [0, 0b01100100, 0xFF, 0xF0, 0, 5, 0b00011011, 0x0F, 0x31, 0x27, 0, 0] ++
  [0, 20, 0, 0, 0, 30, 0, 20, 0, 0, 0, 0, 0, 0, 0, 0] ++ [5, 10, 3] ++
  [1, 1, 1, 1, 0, 20, 0x80, 0x08, 0x80, 0x08, 0, 0, 0, 0, 0, 0] ++
  [2, 1, 0, 1, 0, 0, 0, 0, 0, 0, 0, 0, 0, 0, 0, 3] ++ [2, 2, 1, 0, 0, 0, 0, 0, 0, 0, 1, 2, 0, 0, 0, 1] ++
  [0, 0, 0, 0, 0, 0, 0, 0, 0, 0, 0, 0, 0, 0, 0, 0] ++ [0, 0, 50] ++ [1, 0, 80]

def imageBytes : List Byte := imageHead ++ [0x6D, 0x72]

/-- The check field of the image, by the CRC over its first 101 bytes in three parts. -/
theorem test_image_crc : crc16 imageHead = 0x6D72 := by
  have h1 : (imageHead.take 31).foldl crcByte 0xFFFF#16 = 0x3C1B#16 := by decide +kernel
  have h2 : ((imageHead.drop 31).take 31).foldl crcByte 0x3C1B#16 = 0x6495#16 := by decide +kernel
  have h3 : ((imageHead.drop 62).take 20).foldl crcByte 0x6495#16 = 0x89C9#16 := by decide +kernel
  have h4 : (imageHead.drop 82).foldl crcByte 0x89C9#16 = 0x6D72#16 := by decide +kernel
  have hs : imageHead = imageHead.take 31 ++ ((imageHead.drop 31).take 31 ++ ((imageHead.drop 62).take 20 ++
    imageHead.drop 82)) := by decide +kernel
  rw [crc16, hs, List.foldl_append, List.foldl_append, List.foldl_append, h1, h2, h3, h4]
  rfl

/-- The image the bytes give. -/
def accepted : Image := (Image.ofBytes imageBytes).getD Image.blank

theorem test_image_is_whole : imageBytes.length = 103 ∧ Image.ofBytes imageBytes = some accepted ∧
    bytes2 (crc16 (imageBytes.take 101)) = imageBytes.drop 101 := by
  have ht : imageBytes.take 101 = imageHead := by decide +kernel
  rw [ht, test_image_crc]
  decide +kernel

theorem test_image_check : Image.check imageBytes = .ok accepted := by
  have hd : (imageBytes.drop 101).take 2 = imageBytes.drop 101 := by decide +kernel
  rw [Image.check, hd, test_image_is_whole.2.2, test_image_is_whole.2.1]
  simp

theorem test_image_fields : imageBytes.length = 103 ∧
    ((Image.ofBytes imageBytes).map fun im => (im.modes, im.filters, im.terms.x0, im.terms.x1, im.terms.x2)) =
      some (image.modes, image.filters, image.terms.x0, image.terms.x1, image.terms.x2) ∧
    ((Image.ofBytes imageBytes).map fun im => (im.groups[0], im.groups[3], im.quietTime, im.strobe1)) =
      some (⟨3, 20⟩, ⟨7, 20⟩, 5, ⟨some 1, 80⟩) := by decide +kernel

/-! ### One step of every command -/

theorem test_reset_commands :
    nextHas (exec (.pinReset (after 7)) joined) (fun t => t.ctrl.hold = some ⟨.pin, false, false⟩ && t.time.localTime = 0) ∧
    nextHas (exec (.supplyLowReset (after 7)) joined) (fun t => t.ctrl.hold = some ⟨.supplyLow, false, false⟩) ∧
    nextHas (exec (.powerOnReset (after 7)) joined) (fun t => t.hist.rings.get 0 = []) := by decide +kernel

theorem test_release_records_supply :
    nextHas (runAll [.pinReset (after 0), .furtherResetCondition (after 3) .below270, .resetRelease (after 1) 5 false] joined)
      (fun t => t.ctrl.resetCause = .supply && t.ctrl.lifecycle = .loading && t.ctrl.monitor = .warning) := by
  decide +kernel

theorem test_third_read_failure_halts :
    nextHas (runAll [.configReadAttempt (after 1) none, .configReadAttempt (after 1) (some [1]), .configReadAttempt (after 1) none] loading)
      (fun t => t.ctrl.haltReason = some .noMemory && t.ctrl.faultLine) := by decide +kernel

theorem test_accepted_image_listens :
    nextHas (exec (.configReadAttempt (after 250) (some imageBytes)) loading)
      (fun t => t.ctrl.lifecycle = .listening && t.ctrl.listenTimer = some 1500250 &&
        t.hist.nextInstant = some 300 && t.time.nextSlot = some 12500) := by
  have h : (loading.elapse (after 250)).configRead (some imageBytes) = (loading.elapse (after 250)).startListening accepted := by
    unfold State.configRead
    rw [if_neg (by decide +kernel)]
    simp only
    rw [if_neg (by decide +kernel), test_image_check]
  simp only [exec, execConfigReadAttempt, take, h]
  decide +kernel

/-- R50: 2^48 is 56 past a multiple of 100, so the series goes on 44 ticks after a wrap. -/
theorem test_series_passes_the_wrap :
    let s := { loading with time := { loading.time with localTime := -10, phase := 646 } }.elapse (after 10)
    s.time.localTime = 0 ∧ s.time.phase = 656 ∧ firstInstant 0 s.time.phase 100 none = 44 := by decide +kernel

/-- R91: the midpoint of the offsets +8, −24 of two ADMITTED peers is −8. -/
theorem test_join_takes_entry_step :
    nextHas (exec (.listenTimerExpiry (after 100)) (withPeers (station .listening) [peer 3 .admitted 8, peer 8 .admitted (-24)]))
      (fun t => t.ctrl.lifecycle = .joined && t.time.correction = -8 && t.time.state = .locking &&
        (t.schedule? 0) = some ⟨0, 26⟩) := by decide +kernel

theorem test_warning_and_clear :
    nextHas (exec (.supplyWarning (after 0)) joined) (fun t => t.ctrl.lifecycle = .leaving && t.link.queue.length = 1) ∧
    nextHas (exec (.supplyClear (after 0)) { station .withdrawn with ctrl := { controller .withdrawn none with monitor := .warning } })
      (fun t => t.ctrl.listenTimer = some 6500000) := by decide +kernel

/-- R79, R81: stamp 5,000,100, compensation 3, edge 5,000,000: an offset of 103, accepted, the third in a row. -/
theorem test_beacon_admits :
    nextHas (exec (.beaconArrival ⟨150, [0]⟩ (bytes 9 (.beacon ⟨5000100, 1, .joined, .locked, .power⟩)) 5000000)
        (withPeers joined [peer 9 .heard 0]))
      (fun t => (t.time.peer? 9).map (fun p => (p.state, p.offset, p.accepted)) = some (.admitted, 103, 3)) := by
  decide +kernel

/-- R78: the stamp is the start edge the link unit noted, and an arrival with another is none of that frame's. -/
theorem test_beacon_of_another_stamp :
    nextHas (exec (.beaconArrival ⟨150, [0]⟩ (bytes 9 (.beacon ⟨5000100, 1, .joined, .locked, .power⟩)) 5000001)
        (withPeers joined [peer 9 .heard 0]))
      (fun t => t.time.peers = [peer 9 .heard 0] && t.link.receiver = .taking 5000000) := by decide +kernel

theorem test_leave_removes :
    nextHas (exec (.leaveArrival (after 6) (bytes 9 (.leave 1))) (withPeers onAir [peer 3 .heard 0, peer 9 .admitted 0]))
      (fun t => t.time.peers.map Peer.ident = [3]) := by decide +kernel

/-- R14 to R16: a back-dated CALL is answered at once, with the pair around 4,999,950 on channel 0 and a new epoch on 1. -/
theorem test_back_dated_call :
    nextHas (exec (.callArrival (after 18) (bytes 9 (.call ⟨.station 9 1, 0, 4999950, .scheduled, false⟩))) onAir)
      (fun t => t.link.queue.map QFrame.content = [.report ⟨.station 9 1, .locking, .none,
        [⟨0, .sampled .unconfirmed ⟨7, -50, 0⟩ (some ⟨9, 50⟩)⟩, ⟨1, .sampled .good ⟨0, -50, 0⟩ none⟩]⟩]) := by
  decide +kernel

theorem test_call_too_far :
    nextHas (exec (.callArrival (after 0) (bytes 9 (.call ⟨.station 9 1, 0, 6000001, .scheduled, false⟩))) onAir)
      (fun t => t.cap.declined = [.station 9 1] && t.cap.table = []) := by decide +kernel

theorem test_last_report_closes :
    nextHas (exec (.reportArrival (after 12) (bytes 3 (.report ⟨.station 5 2, .locked, .none, []⟩)))
        (withEntries onAir [{ ownEntry 2 .collecting with origin := some ⟨.collecting, 0b101000, 0b100000, 0, some 5100000,
          false, none⟩ }]))
      (fun t => t.link.queue.map QFrame.content = [.close none]) := by decide +kernel

theorem test_close_frees :
    nextHas (exec (.closeArrival (after 22) (bytes 9 (.close ⟨.cadence 0 4, true, 8, 0, 0⟩)))
        (withEntries onAir [memberEntry 4 .resolved])) (fun t => t.cap.table = []) := by decide +kernel

theorem test_preset_joins_the_list :
    nextHas (exec (.presetArrival (after 16) (bytes 30 (.preset ⟨1, 5000500, 7⟩))) onAir)
      (fun t => t.hist.presets = [⟨1, 5000500, 7, 1⟩]) := by decide +kernel

theorem test_requests_are_answered :
    nextHas (exec (.statusRequest (after 9) (bytes 30 (.request ⟨5, 1, 0, 0⟩))) onAir)
      (fun t => t.req.replies = [⟨0, 30, 1, .done, false⟩]) ∧
    nextHas (exec (.unknownRequest (after 9) (bytes 30 (.request ⟨5, 9, 0, 0⟩))) onAir)
      (fun t => t.req.replies = [⟨0, 30, 9, .unknown, false⟩]) := by decide +kernel

theorem test_term_control :
    nextHas (exec (.termControlArm (after 9) (bytes 30 (.request ⟨5, 2, 2, 1⟩))) onAir)
      (fun t => (t.trig.terms.get 2).state = .armed) ∧
    nextHas (exec (.termControlDisarm (after 9) (bytes 30 (.request ⟨5, 2, 0, 2⟩))) onAir)
      (fun t => (t.trig.terms.get 0).state = .disarmed) ∧
    nextHas (exec (.termControlArm (after 9) (bytes 30 (.request ⟨5, 2, 3, 1⟩))) onAir)
      (fun t => t.req.replies.map ReplyEntry.result = [.noTerm]) := by decide +kernel

theorem test_fault_ack :
    nextHas (exec (.faultAck (after 9) (bytes 30 (.request ⟨5, 3, 1, 0⟩))) onAir)
      (fun t => (t.chans.get 0).quality = .good && (t.chans.get 1).quality = .unconfirmed) := by decide +kernel

theorem test_reply_is_dropped :
    nextHas (exec (.replyArrival (after 50) (bytes 9 (.reply ⟨30, 1, .done, { onAir.snapshot with queueFrames := 1 }⟩))) onAir)
      (fun t => t.link.receiver = .waiting && t.req = onAir.req) := by decide +kernel

theorem test_frame_start_stamps_beacon :
    nextHas (exec (.frameStart (after 10)) (withQueue joined [beacon]))
      (fun t => (t.link.flight.map fun fl => fl.frame.content) =
        some (.beacon (some ⟨5000010, 0x0F, .joined, .locking, .pin⟩))) := by decide +kernel

/-- R134, R178: the LEAVE of station 5 goes out as class 0, kind 2, reason 1; and not while another's frame is on the
bus. -/
theorem test_own_frame_bytes_and_busy_bus :
    nextHas (exec (.frameStart (after 10)) (withQueue (station .leaving) [leave]))
      (fun t => t.link.flight.map Flight.bytes = some (closed [0x05, 0x20, 1, 1]) && t.link.receiver = .taking 5000010) ∧
    nextHas (exec (.frameStart ⟨10, [9]⟩) (withQueue joined [beacon]))
      (fun t => t.link.flight = none && t.link.idleCount = some 0 && t.link.receiver = .taking 5000009) := by decide +kernel

theorem test_lost_arbitration_keeps_attempts :
    nextHas (exec (.lostArbitration (after 2)) (withFlight joined { beacon with attempts := 2 } true false))
      (fun t => t.link.queue = [{ beacon with attempts := 2 }] && t.link.receiver = .taking 5000000 &&
        t.link.idleCount = some 0) := by decide +kernel

/-- R136, R137: bit 3 of the priority byte is driven dominant, and bit 19 is past it: neither can lose arbitration; and its
recessive bit 2 can meet no bit error, but bit 19 can. -/
theorem test_lost_arbitration_in_a_recessive_priority_bit : let s := withFlight joined beacon true false
    (∀ n ∈ [3, 19], nextHas (exec (.lostArbitration (after n)) s) (fun t => t.link.sending)) ∧
    nextHas (exec (.bitError (after 2)) s) (fun t => t.link.sending) ∧
    nextHas (exec (.bitError (after 19)) s) (fun t => !t.link.sending && t.link.idleCount = some 0) := by decide +kernel

theorem test_fourth_bit_error_discards :
    nextHas (exec (.bitError (after 3)) (withFlight joined { beacon with attempts := 3 } true false))
      (fun t => t.link.flight = none && t.link.discards = 1) ∧
    nextHas (exec (.bitError (after 3)) { withFlight joined { beacon with attempts := 3 } true false with
        link := { (withFlight joined { beacon with attempts := 3 } true false).link with discards := 2 } })
      (fun t => t.link.state = .quiet 6000003 && t.req.quietMark) := by decide +kernel

/-- R137: the mark of a bit error at 5,000,003 lasts from 5,000,004 to 5,000,015, and the bus can be idle 12 ticks on. -/
theorem test_error_mark :
    let s := withFlight joined beacon true false
    nextHas (exec (.bitError (after 3)) s) (fun t => t.link.mark = some 5000004 && !t.marking &&
      (t.elapse (after 1)).marking && (t.elapse (after 12)).marking && !(t.elapse (after 13)).marking) ∧
    nextHas (runAll [.bitError (after 3), .busIdle (after 24)] s) (fun t => t.link.receiver = .waiting) ∧
    nextHas (runAll [.bitError (after 3), .busIdle (after 25)] s)
      (fun t => t.link.receiver = .ready && t.link.mark = none && t.link.idleCount = some 12) := by decide +kernel

/-- R37: the deadline is the capture time 5,000,050, the later, and the collect window of 10 ms. -/
theorem test_call_sent_collects :
    nextHas (exec (.frameSent (after 20)) (withFlight (withEntries joined [ownEntry 2 .calling]) (callOf (ownEntry 2 .calling)) true
        false))
      (fun t => (t.cap.table.map fun e => e.origin.map fun o => (o.state, o.deadline)) =
        [some (.collecting, some 5100050)]) := by decide +kernel

theorem test_quiet_end : nextHas (exec (.quietEnd (after 3)) { joined with link := { joined.link with state := .quiet 5000003 } })
    (fun t => t.link.state = .active) := by decide +kernel

/-- R86 to R88, R76: votes {0, +12, −5, +300} keep {0, +12}: midpoint 6, LOCKED; the next slot 100,000 on. -/
theorem test_beacon_slot :
    nextHas (exec (.beaconSlot (after 12500)) (withPeers joined [peer 2 .admitted 12, peer 3 .admitted (-5), peer 8 .admitted 300]))
      (fun t => t.time.correction = 6 && t.time.state = .locked && t.time.nextSlot = some 5112500 && t.ctrl.syncLine &&
        t.time.peers.map Peer.state = [.admitted, .admitted, .suspect]) := by decide +kernel

theorem test_sample_instant :
    nextHas (exec (.sampleInstant (after 100)) { joined with chans := joined.chans.set 0 { Channel.reset with count := 11 } })
      (fun t => (t.hist.rings.get 0).getLast? = some ⟨5000100, 11, 0, .unconfirmed⟩ && t.hist.nextInstant = some 5000200 &&
        t.hist.rings.get 3 = []) := by decide +kernel

/-- R32, R35: index 26 of a 20 ms cadence is 5,200,000; its moment lies the lead of 5 ms before it. -/
theorem test_cadence_moment :
    nextHas (exec (.cadenceMoment (after 150000) 0) { joined with cap := { Capture.reset with schedules := [⟨0, 26⟩] } })
      (fun t => t.cap.schedules = [⟨0, 27⟩] &&
        t.cap.table.map (fun e => (e.tag, e.time, e.strobe)) = [(.cadence 0 26, 5200000, .pending)]) := by decide +kernel

theorem test_retention_end :
    nextHas (exec (.retentionEnd (after 1000050) (.cadence 0 4)) (withEntries joined [memberEntry 4 .reported]))
      (fun t => t.cap.table = []) := by decide +kernel

theorem test_collection_deadline :
    nextHas (exec (.collectionDeadline (after 100000) (.station 5 2)) (withEntries joined [ownEntry 2 .collecting]))
      (fun t => t.link.queue.map QFrame.content = [.close none]) := by decide +kernel

/-- R24, R130: 50 µs are 500 ticks. -/
theorem test_strobe_instant_and_end :
    nextHas (runAll [.strobeInstant (after 50) (.cadence 0 4)] (withEntries joined [memberEntry 4 .waiting]))
      (fun t => t.cap.strobe0 = ⟨true, some 5000550⟩ && t.cap.strobe1 = ⟨false, none⟩) ∧
    nextHas (exec (.strobePulseEnd (after 500) 0) { joined with cap := { Capture.reset with strobe0 := ⟨true, some 5000500⟩ } })
      (fun t => t.cap.strobe0 = ⟨false, none⟩) := by decide +kernel

theorem test_preset_due :
    nextHas (exec (.presetDue (after 10)) (withPresets joined [⟨1, 5000010, 77, 1⟩]))
      (fun t => (t.chans.get 0).count = 77 && (t.chans.get 0).epoch = 1 && t.hist.touched = 1) := by decide +kernel

/-- R98, R99: low-low to high-low counts up; to high-high from low-low is a phase skip. -/
theorem test_quad_step :
    nextHas (exec (.encoderStep (after 1) 0 true false false []) joined) (fun t => (t.chans.get 0).count = 1) ∧
    nextHas (exec (.encoderStep (after 1) 0 true true false []) joined)
      (fun t => (t.chans.get 0).count = 0 && (t.chans.get 0).timer = some 5050001) := by decide +kernel

/-- R100, R122, R125: a rising A with B low counts −1, and T2, armed, crosses nothing; from 0 to +1 it fires. -/
theorem test_pulse_step_crosses :
    let s := { joined with
      chans := joined.chans.set 1 { Channel.reset with lastB := true }
      trig := { joined.trig with terms := joined.trig.terms.set 2 ⟨.armed, false, false, false⟩ } }
    nextHas (exec (.encoderStep (after 1) 1 true true false []) s)
      (fun t => (t.chans.get 1).count = 1 && t.cap.table.map Entry.time = [5000001] && t.cap.sequence = 1) ∧
    nextHas (exec (.encoderStep (after 1) 1 true false false []) joined) (fun t => (t.chans.get 1).count = -1) := by decide +kernel

theorem test_causes_and_timer :
    nextHas (runAll [.lineCauseAppears (after 1) 0 .a, .lineCauseDisappears (after 4) 0 .a] joined)
      (fun t => (t.chans.get 0).quality = .unconfirmed && (t.chans.get 0).timer = some 5050005 && t.ctrl.faultLine) ∧
    nextHas (runAll [.lineCauseAppears (after 1) 0 .a, .lineCauseDisappears (after 4) 0 .a, .autoAckTimerExpiry (after 50000) 0] joined)
      (fun t => (t.chans.get 0).quality = .good && !t.ctrl.faultLine) := by decide +kernel

/-- R117: on D1 the filter is 1 µs: a level that holds 10 ticks is taken with the stamp of its raw edge, a shorter not. -/
theorem test_input_filter :
    nextHas (runAll [.digitalInputRawChange (after 1) 1 true, .filteredInputChange (after 10) 1 []] joined)
      (fun t => t.trig.inputs.get 1 = ⟨true, 5000001⟩) ∧
    nextHas (runAll [.digitalInputRawChange (after 1) 1 true, .digitalInputRawChange (after 9) 1 false, .filteredInputChange (after 1) 1 []] joined)
      (fun t => t.trig.inputs.get 1 = ⟨false, 0⟩) := by decide +kernel

theorem test_holdoff_expiry :
    nextHas (exec (.holdoffExpiry (after 20) 0) (joined.onTerm 0 fun t => { t with state := .holdoff 5000020 }))
      (fun t => (t.trig.terms.get 0).state = .armed) := by decide +kernel

theorem test_framing_and_idle :
    nextHas (exec (.framingError (after 2) .dominantStop) onAir) (fun t => t.link.receiver = .waiting) ∧
    (let s := { joined with link := { LinkUnit.reset with idleCount := some 0 } };
      nextHas (exec (.busIdle (after 11)) s) (fun t => t.link.receiver = .waiting) ∧
      nextHas (exec (.busIdle (after 12)) s) (fun t => t.link.receiver = .ready && t.link.idleCount = some 12) ∧
      nextHas (exec (.busIdle ⟨15, [3]⟩) s) (fun t => t.link.receiver = .waiting && t.link.idleCount = some 11)) := by
  decide +kernel

/-- Section 11.1: a frame sent at one instant, and the next one starts 12 ticks later. -/
theorem test_next_idle_after_a_frame :
    let s := { withFlight joined beacon true false with hist := History.reset, time := { joined.time with nextSlot := none } }
    nextHas (runAll [.frameSent (after 20), .busIdle (after 12)] s) (fun t => t.link.receiver = .ready) ∧
    nextHas (runAll [.frameSent (after 20), .busIdle (after 11)] s) (fun t => t.link.receiver = .waiting) := by
  decide +kernel

theorem test_no_word_spells_a_command : State.reset.withFetchWord 16 0x1234 = State.reset := by decide +kernel

/-- One tick passes while nothing waits and nothing is due. -/
theorem test_idle_tick : nextHas (step State.reset) (fun t => t = State.reset) ∧
    nextHas (step { joined with hist := { joined.hist with nextInstant := some 5000300 } })
      (fun t => t.time.localTime = 5000001) := by decide +kernel

/-! ### For every obligation with hypotheses: they can be met, clause by clause -/

/-- A command answers a next state. -/
def completes (c : Instr) (s : State) : Bool := nextHas (exec c s) fun _ => true

/-- An arrival of a frame from station `i`, decoded as it was sent, at a receiver that takes it. -/
def heard (i : Ident) (b : Body) (s : State) : Bool :=
  decide (Frame.decode (bytes i b) = some ⟨1, i, b⟩) && decide (i ≠ s.ctrl.identity) &&
    ((s.elapse (after 0)).frameEnds (bytes i b)).isSome

def warned : State := { joined with ctrl := { joined.ctrl with monitor := .warning } }

theorem test_meets_step_clauses : (joined.withPending [.busIdle (after 0)]).pending = .busIdle (after 0) :: [] ∧
    (State.reset.pending = [] ∧ State.reset.dueEvents = []) ∧
    ((joined.elapse (after 100)).pending = [] ∧ (joined.elapse (after 100)).dueEvents = .sampleInstant (after 0) :: []) := by decide +kernel

/-- FlagsFollowEveryCommand, LifecycleKept, LinkKept, TablesAndChannelsKept, OriginPartsHoldTheirFrame, HoldKeepsResetValues. -/
theorem test_meets_next_state_premises : completes (.encoderStep (after 0) 0 true false false []) joined = true ∧
    joined.sound = true ∧ nextHas (step (joined.withPending [.busIdle (after 0)])) (fun _ => true) = true ∧
    (joined.withPending [.busIdle (after 0)]).sound = true ∧ State.reset.sound = true ∧
    nextHas (step State.reset) (fun _ => true) = true := by decide +kernel

theorem test_meets_own_frames : let s := withQueue (withEntries joined [ownEntry 2 .calling, ownEntry 3 .collecting,
      ownEntry 4 .closing, memberEntry 5 .waiting]) [callOf (ownEntry 2 .calling), closeOfEntry (ownEntry 4 .closing)]
    s.ownersSound = true ∧ s.uidsSound = true ∧ s.answersSound = true ∧ s.queueOrdered = true ∧ s.restSound = true ∧
    nextHas (step s) (fun _ => true) = true := by decide +kernel

theorem test_meets_local_time_cases : completes (.pinReset (after 1)) joined = true ∧ completes (.resetRelease (after 1) 5 true) State.reset = true ∧
    completes (.busIdle (after 1)) State.reset = true ∧ completes (.busIdle (after 1)) joined = true ∧ joined.ctrl.hold = none ∧
    State.reset.ctrl.hold = some ⟨.powerOn, false, false⟩ := by decide +kernel

theorem test_meets_correction_changes :
    nextHas (exec (.beaconSlot (after 12500)) (withPeers joined [peer 2 .admitted 12])) (fun t => t.time.correction ≠ 0) ∧
    nextHas (exec (.listenTimerExpiry (after 100)) (withPeers (station .listening) [peer 3 .admitted 8]))
      (fun t => t.time.correction ≠ 0) ∧
    nextHas (exec (.pinReset (after 0)) { joined with time := { joined.time with correction := 4 } })
      (fun t => t.time.correction ≠ 4) := by decide +kernel

theorem test_meets_hold : joined.ctrl.hold = none ∧ State.reset.ctrl.hold = some ⟨.powerOn, false, false⟩ ∧
    State.reset.holdSound = true := by decide +kernel

theorem test_meets_read_outcomes : (loading.ctrl.hold = none ∧ loading.ctrl.lifecycle = .loading) ∧
    ([1, 2] : List Byte).length < 103 ∧
    ((List.replicate 103 (0 : Byte)).length = 103 ∧ Image.ofBytes (imageBytes.set 28 0) = none) := by decide +kernel

/-- An image with its last byte changed fails its CRC. -/
theorem test_meets_bad_crc : bytes2 (crc16 ((imageBytes.set 102 0).take 101)) ≠ (imageBytes.set 102 0).drop 101 := by
  have h : (imageBytes.set 102 0).take 101 = imageHead := by decide +kernel
  rw [h, test_image_crc]; decide +kernel

def leadZeroHead : List Byte := imageHead.set 28 0

def leadZero : List Byte := leadZeroHead ++ [0xD9, 0x90]

/-- An image with a cadence lead of 0 and its own check field passes the CRC and fails a range. -/
theorem test_meets_bad_range : leadZero.length = 103 ∧ Image.ofBytes leadZero = none ∧
    bytes2 (crc16 (leadZero.take 101)) = leadZero.drop 101 := by
  have h1 : (leadZeroHead.take 31).foldl crcByte 0xFFFF#16 = 0xD7EB#16 := by decide +kernel
  have h2 : ((leadZeroHead.drop 31).take 31).foldl crcByte 0xD7EB#16 = 0xA866#16 := by decide +kernel
  have h3 : ((leadZeroHead.drop 62).take 20).foldl crcByte 0xA866#16 = 0x4470#16 := by decide +kernel
  have h4 : (leadZeroHead.drop 82).foldl crcByte 0x4470#16 = 0xD990#16 := by decide +kernel
  have hs : leadZeroHead = leadZeroHead.take 31 ++ ((leadZeroHead.drop 31).take 31 ++ ((leadZeroHead.drop 62).take 20 ++
    leadZeroHead.drop 82)) := by decide +kernel
  have hc : crc16 leadZeroHead = 0xD990#16 := by
    rw [crc16, hs, List.foldl_append, List.foldl_append, List.foldl_append, h1, h2, h3, h4]
  have ht : leadZero.take 101 = leadZeroHead := by decide +kernel
  rw [ht, hc]
  decide +kernel

/-- AcceptedImageStartsListening and AcceptedImageInRange. -/
theorem test_meets_accepted_image : loading.ctrl.hold = none ∧ loading.ctrl.lifecycle = .loading ∧
    imageBytes.length = 103 ∧ bytes2 (crc16 (imageBytes.take 101)) = imageBytes.drop 101 ∧
    Image.ofBytes imageBytes = some accepted ∧
    { loading with hist := { loading.hist with passed := some 250 } }.ctrl = loading.ctrl :=
  ⟨rfl, rfl, test_image_is_whole.1, test_image_is_whole.2.2, test_image_is_whole.2.1, rfl⟩

theorem test_meets_join : let s := station .listening
    s.ctrl.hold = none ∧ s.ctrl.lifecycle = .listening ∧ s.ctrl.listenTimer = some 5000100 ∧
    later 5000100 (s.elapse (after 100)).time.localTime = false ∧ s.restSound = true ∧ s.linesSound = true := by decide +kernel

/-- R91's votes: the LOCKING and LOCKED peers where there are any, else all; one, three and four of them. -/
theorem test_meets_entry_votes :
    let free (i : Ident) (x : Time) : Peer := { peer i .admitted x with timeState := .free }
    (∀ S ∈ [[(8 : Int)], [-24, 0, 8], [-24, -3, 8, 90]], S.Pairwise (· ≤ ·) ∧ S ≠ []) ∧
    (withPeers joined [peer 3 .admitted 8, free 4 700, peer 8 .heard 5]).time.entryVotes = [8] ∧
    (withPeers joined [free 3 8, free 4 0, free 8 (-24)]).time.entryVotes = [8, 0, -24] ∧
    midpoint [8, 0, -24] = -8 ∧ midpoint [8, -3, 90, -24] = 2 := by decide +kernel

theorem test_meets_monitor_clauses : joined.ctrl.hold = none ∧ warned.ctrl.monitor = .warning ∧
    joined.ctrl.monitor = .normal ∧ (station .withdrawn).ctrl.lifecycle ≠ .joined ∧
    (station .listening).ctrl.lifecycle = .listening := by decide +kernel

theorem test_meets_warning : joined.ctrl.hold = none ∧ joined.ctrl.monitor = .normal ∧ joined.ctrl.lifecycle = .joined ∧
    joined.leaveSound = true ∧ joined.linesSound = true := by decide +kernel

theorem test_meets_halted_and_muted : ∀ l ∈ [Lifecycle.halted, .muted], (station l).ctrl.hold = none ∧
    (station l).ctrl.lifecycle = l ∧ completes (.busIdle (after 0)) (station l) = true := by decide +kernel

theorem test_meets_conflict : Frame.decode (bytes 5 (.leave 1)) = some ⟨1, 5, .leave 1⟩ ∧ onAir.linesSound = true ∧
    ∀ l ∈ [Lifecycle.joined, .leaving, .listening, .withdrawn, .muted],
      let s := hearing (station l)
      s.ctrl.identity = 5 ∧ ((s.elapse (after 0)).frameEnds (bytes 5 (.leave 1))).isSome = true ∧ s.ctrl.lifecycle = l := by
  decide +kernel

theorem test_meets_encodable : exampleReport.encodable = true ∧ Frame.encodable ⟨0, 3, .leave 255⟩ = true ∧
    Frame.encodable ⟨0, 31, .close ⟨.station 3 7, false, 0x0A, 0, 0x20⟩⟩ = true ∧
    Frame.encodable ⟨3, 1, .reply ⟨30, 1, .done, { joined.snapshot with queueFrames := 12 }⟩⟩ = true := by decide +kernel

/-- The last stop bit of six bytes passes 60 ticks after the start edge, and not at 59. -/
theorem test_meets_ill_formed : let b : List Byte := [0x09, 0x20, 1, 1, 0, 0]
    (Instr.leaveArrival ⟨60, [0]⟩ b).frame? = some b ∧ Frame.decode b = none ∧
    (joined.elapse ⟨60, [0]⟩).frameEnds b = some 5000000 ∧ (joined.elapse ⟨59, [0]⟩).frameEnds b = none ∧
    (State.reset.elapse ⟨60, [0]⟩).frameEnds b = none ∧ (joined.elapse (after 60)).frameEnds b = none ∧
    (Instr.beaconArrival ⟨60, [0]⟩ b 5000001).stamp? = some 5000001 := by
  decide +kernel

/-- An accepted and a rejected BEACON, the reject limit of 200 itself accepted, for each state of the sender's entry. -/
theorem test_meets_beacon : (joined.elapse ⟨150, [0]⟩).frameEnds (bytes 9 (.beacon ⟨5000197, 1, .joined, .locked, .power⟩)) =
      some 5000000 ∧
    heard 9 (.beacon ⟨5000197, 1, .joined, .locked, .power⟩) onAir = true ∧
    heard 9 (.beacon ⟨5000198, 1, .joined, .locked, .power⟩) (withPeers onAir [peer 3 .admitted 0]) = true ∧
    (onAir.offsetSample ⟨5000197, 1, .joined, .locked, .power⟩ 5000000).toInt = 200 ∧
    (onAir.offsetSample ⟨5000198, 1, .joined, .locked, .power⟩ 5000000).toInt = 201 ∧
    ∀ x ∈ [PeerState.heard, .admitted, .suspect, .silent],
      (withPeers onAir [peer 9 x 0]).time.peers.find? (fun q => decide (q.ident = 9)) = some (peer 9 x 0) := by
  decide +kernel

theorem test_meets_leave_and_reply : heard 9 (.leave 1) onAir = true ∧
    heard 9 (.reply ⟨30, 1, .done, { onAir.snapshot with queueFrames := 1 }⟩) onAir = true := by decide +kernel

/-- Every kind that only JOINED takes, heard in WITHDRAWN. -/
theorem test_meets_ignored_outside_joined : let s := hearing (station .withdrawn)
    s.ctrl.lifecycle ≠ .joined ∧ heard 9 (.call ⟨.station 9 1, 0, 5000000, .scheduled, false⟩) s = true ∧
    heard 9 (.report ⟨.station 5 1, .free, .none, []⟩) s = true ∧ heard 9 (.close ⟨.station 5 1, true, 8, 0, 0⟩) s = true ∧
    heard 30 (.preset ⟨1, 5000500, 8⟩) s = true ∧ heard 30 (.request ⟨5, 1, 0, 0⟩) s = true := by decide +kernel

/-- One ignored arrival of every kind that can be ignored. -/
theorem test_meets_ignored : onAir.uidsSound = true ∧
    (heard 9 (.call ⟨.station 9 1, 7, 5000000, .scheduled, false⟩) onAir = true ∧
      onAir.image.declared.getLsbD 7 = false) ∧
    (heard 9 (.call ⟨.cadence 1 1, 0, 5000000, .cadence, false⟩) onAir = true ∧ (1 : Group) ≠ 0) ∧
    (let s := withEntries onAir [memberEntry 4 .waiting];
      heard 9 (.call ⟨.cadence 0 4, 0, 5000000, .cadence, false⟩) s = true ∧ s.tagged? (.cadence 0 4) = some (memberEntry 4 .waiting) ∧
      heard 9 (.report ⟨.cadence 0 4, .free, .none, []⟩) s = true ∧ (memberEntry 4 .waiting).origin = none) ∧
    (let s := { onAir with cap := { onAir.cap with declined := [.cadence 0 9] } };
      heard 9 (.call ⟨.cadence 0 9, 0, 5000000, .cadence, false⟩) s = true ∧ s.tagged? (.cadence 0 9) = none ∧
      Tag.cadence 0 9 ∈ s.cap.declined) ∧
    (let s := withEntries onAir [ownEntry 2 .collecting];
      heard 9 (.close ⟨.station 5 2, true, 8, 0, 0⟩) s = true ∧ s.tagged? (.station 5 2) = some (ownEntry 2 .collecting) ∧
      s.ctrl.identity < (9 : Ident)) ∧
    (let s := withPresets onAir [⟨1, 5000500, 7, 1⟩];
      heard 30 (.preset ⟨1, 5000500, 8⟩) s = true ∧ ∃ q ∈ s.hist.presets, q.group = 1 ∧ q.time = 5000500) ∧
    (heard 30 (.request ⟨6, 1, 0, 0⟩) onAir = true ∧ (6 : Ident) ≠ onAir.ctrl.identity) := by decide +kernel

/-- The capture time exactly 1,000,000 ticks ahead passes, in a table with room and in a full one. -/
theorem test_meets_call :
    let b : CallFrame := ⟨.station 9 1, 0, 6000000, .scheduled, false⟩
    heard 9 (.call b) onAir = true ∧ b.agrees = true ∧ onAir.image.declared.getLsbD 0 = true ∧
    onAir.tagged? b.tag = none ∧ b.tag ∉ onAir.cap.declined ∧ timeDiff b.time (onAir.elapse (after 0)).netTime ≤ 1000000 ∧
    onAir.cap.table.length ≤ 16 ∧ onAir.uidsSound = true ∧ onAir.link.count < 12 ∧
    (let full := withEntries onAir ((List.range 16).map fun k => memberEntry k .reported);
      full.cap.table.length = 16 ∧ (full.cap.table.find? Entry.freeable).isSome = true ∧ full.uidsSound = true ∧
        full.tagged? b.tag = none) := by decide +kernel

theorem test_meets_declined :
    let b : CallFrame := ⟨.station 9 1, 0, 6000001, .scheduled, false⟩
    let full := withEntries onAir ((List.range 16).map fun k => memberEntry k .waiting)
    heard 9 (.call b) onAir = true ∧ onAir.tagged? b.tag = none ∧ b.tag ∉ onAir.cap.declined ∧ b.agrees = true ∧
    onAir.link.count < 12 ∧ 1000000 < timeDiff b.time (onAir.elapse (after 0)).netTime ∧
    timeDiff b.time (onAir.elapse (after 1)).netTime ≤ 1000000 ∧ 16 ≤ full.cap.table.length ∧
    (∀ e ∈ full.cap.table, e.freeable = false) ∧ full.tagged? b.tag = none := by decide +kernel

/-- Station 5's own CALL waiting in the queue, of an entry with the retention end `t`. -/
def givingWay (t : Time) : State :=
  let e := { ownEntry 2 .calling with retentionEnd := t }
  withQueue (withEntries onAir [e]) [callOf e]

/-- A retention end ahead of local time keeps the entry as a member's; one at it, or 2^47 ticks from it, frees it. -/
theorem test_gives_way_by_retention :
    let c := Instr.callArrival (after 0) (bytes 9 (.call ⟨.station 5 2, 1, 5000050, .triggered, false⟩))
    nextHas (exec c (givingWay 5000001)) (fun t => t.cap.table.map Entry.origin = [none]) ∧
    nextHas (exec c (givingWay 5000000)) (fun t => t.cap.table = [] && t.link.queue = []) ∧
    nextHas (exec c (givingWay 140737493355328)) (fun t => t.cap.table = [] && t.link.queue = []) := by decide +kernel

theorem test_meets_gives_way :
    let e := ownEntry 2 .calling
    let s := withQueue (withEntries onAir [e]) [callOf e]
    heard 9 (.call ⟨e.tag, 1, 5000050, .triggered, false⟩) s = true ∧ s.tagged? e.tag = some e ∧
    (∃ o, e.origin = some o ∧ o.state = .calling) ∧ s.link.callQueued (.entry e.uid) = true ∧ s.uidsSound = true ∧
    (CallFrame.agrees ⟨e.tag, 1, 5000050, .triggered, false⟩) = true ∧ s.image.declared.getLsbD 1 = true := by
  refine ⟨?_, ?_, ⟨_, rfl, rfl⟩, ?_, ?_, ?_, ?_⟩ <;> decide +kernel

/-- The same with a retention end that has passed. -/
theorem test_meets_gives_way_passed :
    let s := givingWay 5000000
    heard 9 (.call ⟨.station 5 2, 1, 5000050, .triggered, false⟩) s = true ∧
    s.tagged? (.station 5 2) = some { ownEntry 2 .calling with retentionEnd := 5000000 } ∧
    s.link.callQueued (.entry 2) = true ∧ s.uidsSound = true ∧
    later 5000000 (s.elapse (after 0)).time.localTime = false := by decide +kernel

theorem test_meets_report_counted :
    let e := ownEntry 2 .collecting
    let s := withEntries onAir [e]
    heard 3 (.report ⟨e.tag, .free, .none, []⟩) s = true ∧ s.tagged? e.tag = some e ∧
    (∃ o, e.origin = some o ∧ o.state ≠ .calling ∧ o.begun = false ∧ hasIdent o.responders 3 = false ∧
      hasIdent o.decliners 3 = false) ∧ s.uidsSound = true ∧ s.link.count < 12 := by
  refine ⟨?_, ?_, ⟨_, rfl, by decide, rfl, by decide, by decide⟩, ?_, ?_⟩ <;> decide +kernel

theorem test_meets_close :
    (let s := withEntries onAir [memberEntry 4 .resolved];
      heard 9 (.close ⟨.cadence 0 4, true, 8, 0, 0⟩) s = true ∧ s.tagged? (.cadence 0 4) = some (memberEntry 4 .resolved) ∧
      s.uidsSound = true ∧ (memberEntry 4 .resolved).origin = none) ∧
    (let e := ownEntry 2 .calling;
      let s := withQueue (withEntries onAir [e]) [callOf e];
      heard 9 (.close ⟨e.tag, true, 8, 0, 0⟩) s = true ∧ s.tagged? e.tag = some e ∧
      s.link.callQueued (.entry e.uid) = true) ∧
    (let e := ownEntry 2 .closing;
      let s := withEntries onAir [e];
      heard 4 (.close ⟨e.tag, true, 8, 0, 0⟩) s = true ∧ s.tagged? e.tag = some e ∧ (4 : Ident) < s.ctrl.identity) ∧
    (let s := withQueue { onAir with cap := { onAir.cap with declined := [.cadence 0 9] } } [declinedFrame];
      heard 9 (.close ⟨.cadence 0 9, true, 8, 0, 0⟩) s = true ∧ s.tagged? (.cadence 0 9) = none ∧
      Tag.cadence 0 9 ∈ s.cap.declined ∧ ∃ f ∈ s.link.queue, f.owner = .declined (.cadence 0 9)) := by decide +kernel

/-- One PRESET for each reason, at the boundary: now is LATE, 1,000,001 ahead FAR, a fifth FULL, 100 away CROWDED. -/
theorem test_meets_preset :
    let crowd := withPresets onAir [⟨1, 5000500, 7, 1⟩]
    let full := withPresets onAir [⟨1, 5000500, 7, 1⟩, ⟨1, 5000700, 7, 1⟩, ⟨1, 5000900, 7, 1⟩, ⟨1, 5001100, 7, 1⟩]
    heard 30 (.preset ⟨1, 5000000, 8⟩) onAir = true ∧ onAir.presetRefusal ⟨1, 5000000, 8⟩ = some .late ∧
    onAir.presetRefusal ⟨1, 6000001, 8⟩ = some .far ∧ onAir.presetRefusal ⟨1, 6000000, 8⟩ = none ∧
    full.presetRefusal ⟨1, 5009000, 8⟩ = some .full ∧ crowd.presetRefusal ⟨1, 5000600, 8⟩ = some .crowded ∧
    crowd.presetRefusal ⟨1, 5000601, 8⟩ = none ∧
    (∀ q ∈ full.hist.presets, ¬ (q.group = 1 ∧ q.time = 5009000)) := by decide +kernel

/-- StatusAndUnknownAnswered, TermControlActs and FaultAckActs. -/
theorem test_meets_requests : onAir.linesSound = true ∧ onAir.link.count < 12 ∧ onAir.link.queue = [] ∧
    (heard 30 (.request ⟨5, 1, 0, 0⟩) onAir = true ∧ RequestFrame.read ⟨5, 1, 0, 0⟩ = .status) ∧
    (heard 30 (.request ⟨5, 4, 0, 0⟩) onAir = true ∧ RequestFrame.read ⟨5, 4, 0, 0⟩ = .unknown) ∧
    (heard 30 (.request ⟨5, 2, 3, 1⟩) onAir = true ∧ RequestFrame.read ⟨5, 2, 3, 1⟩ = .arm 3) ∧
    (heard 30 (.request ⟨5, 2, 0, 2⟩) onAir = true ∧ RequestFrame.read ⟨5, 2, 0, 2⟩ = .disarm 0) ∧
    (heard 30 (.request ⟨5, 3, 15, 0⟩) onAir = true ∧ RequestFrame.read ⟨5, 3, 15, 0⟩ = .faultAck 15) := by
  decide +kernel

/-- A start from the queue in JOINED at an idle count of 12, a LEAVE's in LEAVING, a retry's, and a bus that another
station's start bit has taken first. -/
theorem test_meets_frame_start : joined.ctrl.hold = none ∧ joined.link.state = .active ∧
    (joined.elapse (after 3)).link.idleCount = some 15 ∧ (joined.elapse ⟨3, [2]⟩).link.idleCount = some 0 ∧
    ((withQueue joined [beacon]).link.flight = none ∧ (withQueue joined [beacon]).link.queue = beacon :: []) ∧
    ((station .leaving).ctrl.lifecycle = .leaving ∧ leave.content = .leave 1) ∧
    (withFlight joined beacon false false).link.flight = some ⟨beacon, [0x4C, 0x00], false, false⟩ := by decide +kernel

/-- LostArbitrationReturnsFrame, BitErrorAwaitsRetry, DiscardTellsOwner and FrameSentTellsOwner, one owner each. -/
theorem test_meets_flights : ∀ f ∈ [callOf (ownEntry 2 .calling), reportOfEntry (memberEntry 4 .resolved),
      closeOfEntry (ownEntry 4 .closing), beacon, leave, declinedFrame, reply 3],
    ∀ finishing ∈ [true, false],
      (withFlight joined f true finishing).link.flight = some ⟨f, [0x4C, 0x00], true, finishing⟩ ∧ joined.ctrl.hold = none ∧
      (withFlight joined f true finishing).link.receiver = .taking 5000000 ∧
      later (5000000 + BitVec.ofNat 48 (10 * 2)) ((withFlight joined f true finishing).elapse (after 20)).time.localTime = false ∧
      (∀ n ∈ [0, 2, 3, 9, 10, 19, 20], (((withFlight joined f true finishing).elapse (after n)).time.localTime - 5000000).toNat = n) ∧
      (∀ n ∈ [0, 3, 10], dominantBit [0x4C, 0x00] n = true) ∧ (∀ n ∈ [2, 9, 19], dominantBit [0x4C, 0x00] n = false) ∧
      f.attempts < 3 ∧ 3 ≤ { f with attempts := 3 }.attempts ∧
      completes (.bitError (after 3)) (withFlight joined { f with attempts := 3 } true finishing) = true := by decide +kernel

/-- The own REPORT of an origin that counts it, of one whose CLOSE has begun, and of one that has counted the station. -/
theorem test_meets_own_report :
    let e := { ownEntry 2 .collecting with member := .resolved }
    let s := withFlight (withEntries joined [e]) (reportOfEntry e) true false
    s.link.flight = some ⟨reportOfEntry e, [0x4C, 0x00], true, false⟩ ∧ s.link.receiver = .taking 5000000 ∧
    later (5000000 + BitVec.ofNat 48 (10 * 2)) (s.elapse (after 20)).time.localTime = false ∧
    (reportOfEntry e).owner = .entry e.uid ∧ e ∈ s.cap.table ∧
    (∃ o, e.origin = some o ∧ o.state ≠ .calling ∧ o.begun = false ∧ hasIdent o.responders 5 = false ∧
      hasIdent o.decliners 5 = false) ∧ s.uidsSound = true ∧ s.queueSound = true ∧
    ∀ o ∈ [(⟨.closing, 0b101000, 0, 0, none, true, none⟩ : Origin),
        ⟨.collecting, 0b101000, identBit 5, 0, none, false, none⟩],
      let e := { memberEntry 2 .resolved with origin := some o }
      let s := withFlight (withEntries joined [e]) (reportOfEntry e) true false
      s.link.flight = some ⟨reportOfEntry e, [0x4C, 0x00], true, false⟩ ∧ e ∈ s.cap.table ∧ e.origin = some o ∧
        (o.begun = true ∨ hasIdent o.responders s.ctrl.identity = true) ∧ s.uidsSound = true ∧ s.queueSound = true := by
  refine ⟨?_, ?_, ?_, ?_, ?_, ⟨_, rfl, by decide, rfl, by decide, by decide⟩, ?_, ?_, ?_⟩ <;> decide +kernel

theorem test_meets_quiet_idle_framing :
    let s := { joined with link := { joined.link with state := .quiet 5000003 } }
    (s.link.state = .quiet 5000003 ∧ s.running = true ∧ later 5000003 (s.elapse (after 3)).time.localTime = false) ∧
    joined.link.flight = none ∧ joined.link.receiver = .ready ∧
    (onAir.elapse ⟨4, [2]⟩).link.receiver = .taking 4999300 ∧ onAir.link.flight = none ∧
    (let t := { joined with link := { joined.link with idleCount := some 0, receiver := .waiting, mark := some 4999990 } };
      t.receiverSound = true ∧ t.link.mark = some 4999990 ∧ (t.elapse (after 14)).link.receiver = .waiting ∧
        (t.elapse (after 13)).link.busIdle = false ∧ (t.elapse (after 14)).link.busIdle = true) := by decide +kernel

/-- R133, R139: no dominant bit time, two of them, the own frame's (bit 18 the last), and a start bit at the 13th bit time
after a dominant one where the 12th begins no frame. -/
theorem test_meets_idle_count :
    let t := { joined with link := { joined.link with idleCount := some 3, receiver := .waiting } }
    (joined.elapse (after 5)).link.idleCount = some 17 ∧ (t.elapse ⟨9, [2, 5]⟩).link.idleCount = some 3 ∧
    ((withFlight joined beacon true false).elapse (after 20)).link.idleCount = some 1 ∧
    (t.elapse ⟨20, [2, 15]⟩).link.receiver = .taking 5000015 ∧ (t.elapse ⟨20, [2, 14]⟩).link.receiver = .waiting ∧
    (t.elapse ⟨20, [9]⟩).link.receiver = .taking 5000009 ∧ (t.elapse ⟨20, [8]⟩).link.receiver = .waiting := by
  decide +kernel

/-- A full queue of twelve frames with `f` the youngest, and one of class 0 alone. -/
def fullQueue (f : QFrame) : State :=
  withQueue joined ((List.range 11).map (fun k => { callOf (ownEntry k .calling) with age := k }) ++ [{ f with age := 99 }])

/-- An offer that replaces a BEACON or a REPLY, one with room, one for which each kind of frame is evicted, and one that is
refused for each kind of owner. -/
theorem test_meets_eviction : (withQueue joined [beacon, reply 3, reply 4]).link.victim 1 = some (reply 4) ∧
    (withQueue joined [beacon, reply 3]).link.victim 3 = none ∧ (withQueue joined [beacon]).link.victim 2 = none ∧
    (withQueue joined [beacon, reply 3]).link.queue.find? (fun f => match f.content with | .beacon _ => true | _ => false) =
      some beacon ∧ beacon.owner = .time ∧
    (withQueue joined [beacon, reply 3]).link.queue.find? (fun f => match f.content with
      | .reply other _ => decide (other = 9) | _ => false) = some (reply 3) ∧
    joined.link.count < 12 ∧
    (∀ f ∈ [reportOfEntry (memberEntry 60 .resolved), declinedFrame, beacon, reply 3],
      (fullQueue f).link.count = 12 ∧ (fullQueue f).link.victim 0 = some { f with age := 99 }) ∧
    (fullQueue (callOf (ownEntry 61 .calling))).link.count = 12 ∧
    ∀ c ∈ [0, 1, 2, 3], (fullQueue (callOf (ownEntry 61 .calling))).link.victim c = none := by decide +kernel

theorem test_meets_reply : joined.tableSound = true ∧ joined.queueSound = true ∧ joined.presetsSound = true ∧
    joined.peersSound = true ∧ joined.ctrl.identity ≠ 0 ∧ 1 ≤ (withQueue joined [reply 3]).link.count := by decide +kernel

/-- Times with a slot of the series ahead, times with none, and slots on both sides of the wrap. -/
theorem test_meets_slots : (5000000 : Time).toNat < 5012500 ∧ 5012500 % 100000 = (5 : Ident).toNat * 2500 ∧
    (firstSlot 5 5000000) = 5012500 ∧ (firstSlot 5 5012500) = 5112500 ∧
    (281474976710655 : Time).toNat % 100000 = 10655 ∧ (firstSlot 5 281474976710655) = 12500 ∧
    (281474976710000 : Time).toNat % 100000 = 4 * 2500 ∧ (firstSlot 4 281474976710000) = 10000 ∧
    (nextSlotOf 4 281474976710000 - 281474976710000).toNat = 10656 ∧
    (nextSlotOf 5 281474976612500 - 281474976612500).toNat = 110656 := by decide +kernel

/-- The offset sets of R86's table, in order, with their midpoints. -/
theorem test_meets_midpoint : ([-5, 0, 12, 300] : List Int).Pairwise (· ≤ ·) ∧
    ([-5, 0, 12, 300] : List Int).Perm (0 :: (withPeers joined [peer 2 .admitted 12, peer 3 .admitted (-5),
      peer 8 .admitted 300]).time.votes) ∧
    midpoint [0, 12, -5, 300] = 6 ∧ midpoint [0, 37] = 18 ∧ midpoint [0, 12, -5] = 3 ∧
    midpoint [0, -3, -3, -8, -9] = -5 ∧ midpoint [0] = 0 := by decide +kernel

/-- A slot in JOINED and outside it, with a change of 0, with a waiting BEACON and without, and with a change. -/
theorem test_meets_slot : ∀ s ∈ [joined, withQueue joined [beacon], station .withdrawn, withPeers joined [peer 2 .admitted 12]],
    s.running = true ∧ s.time.nextSlot = some 5012500 ∧
    later (5012500 - s.time.correction) (s.elapse (after 12500)).time.localTime = false := by decide +kernel

theorem test_meets_correction : let s := withEntries joined [ownEntry 2 .collecting, memberEntry 4 .waiting]
    (8 : Time) ≠ 0 ∧ s.uidsSound = true ∧ s.link.count + s.originCount ≤ 12 ∧
    (∃ o, (ownEntry 2 .collecting).origin = some o ∧ o.state = .collecting ∧
      (o.deadline.any fun d => !later (d - (s.time.correction + 100000)) s.time.localTime) = true) ∧
    (∀ q ∈ s.hist.presets, (!later (q.time - 8) s.time.localTime) = false) := by
  refine ⟨?_, ?_, ?_, ⟨_, rfl, rfl, ?_⟩, ?_⟩ <;> decide +kernel

/-- A ring of two samples 100 apart, with a time before it, on its oldest sample, inside it, and on its newest. -/
theorem test_meets_ring :
    let ring := joined.hist.rings.get 0
    ring.length ≤ 512 ∧ (ring.map Sample.time) = [4999900 + BitVec.ofNat 48 (0 * 100), 4999900 + BitVec.ofNat 48 (1 * 100)] ∧
    resolve ring 4999899 = .stale ∧ resolve ring 4999900 = .pair ⟨4999900, 7, 0, .good⟩ ⟨5000000, 9, 0, .unconfirmed⟩ ∧
    resolve ring 4999999 = .pair ⟨4999900, 7, 0, .good⟩ ⟨5000000, 9, 0, .unconfirmed⟩ ∧
    resolve ring 5000000 = .notYet := by decide +kernel

theorem test_meets_sample :
    let s := withEntries joined [memberEntry 4 .waiting]
    s.running = true ∧ s.hist.nextInstant = some 5000100 ∧ later 5000100 (s.elapse (after 100)).time.localTime = false ∧
    s.uidsSound = true ∧ s.hist.presets = [] ∧ s.link.count + 1 ≤ 12 ∧
    loading.ctrl.hold = none ∧ loading.ctrl.lifecycle = .loading := by decide +kernel

theorem test_meets_preset_due :
    let s := withPresets joined [⟨1, 5000010, 77, 1⟩, ⟨0, 5000010, 78, 3⟩]
    s.running = true ∧ later (5000010 - s.time.correction) (s.elapse (after 10)).time.localTime = false ∧
    (1 : ChanSet) &&& s.hist.touched = 0 ∧ (3 : ChanSet) &&& (s.hist.touched ||| 1) ≠ 0 ∧
    (let base := withPresets joined [⟨1, 5000010, 77, 1⟩];
      let held := { base with hist := { base.hist with touched := 1 } };
      held.hist.presets = ⟨1, 5000010, 77, 1⟩ :: [] ∧ (1 : ChanSet) &&& held.hist.touched ≠ 0) := by decide +kernel

/-- A cadence moment exactly reached: elected with room; with a lower peer ADMITTED; with the tag held. -/
theorem test_meets_cadence :
    let s := { joined with cap := { Capture.reset with schedules := [⟨0, 26⟩] } }
    s.ctrl.hold = none ∧ s.ctrl.lifecycle = .joined ∧ s.schedule? 0 = some ⟨0, 26⟩ ∧
    later (BitVec.ofNat 48 (26 * 200000) - BitVec.ofNat 48 50000 - s.time.correction) (s.elapse (after 150000)).time.localTime = false ∧
    s.time.peers = [] ∧ s.originCount < 4 ∧ s.cap.table.length < 16 ∧ s.link.count < 12 ∧
    (peer 2 .admitted 0).groups.getLsbD 0 = true ∧ ¬ s.ctrl.identity < (peer 2 .admitted 0).ident ∧
    (memberEntry 26 .waiting).tag = .cadence 0 26 := by decide +kernel

/-- A full table whose third entry is the oldest freeable one, for a cadence moment and a fire, without the tag of either. -/
def fullTable : List Entry :=
  [memberEntry 50 .waiting, memberEntry 51 .resolved] ++ memberEntry 52 .reported ::
    (List.range 13).map fun k => memberEntry k .reported

theorem test_meets_full_table : let s := withEntries joined fullTable
    s.cap.table.length = 16 ∧ s.uidsSound = true ∧ s.originCount < 4 ∧ (memberEntry 52 .reported).freeable = true ∧
    (∀ x ∈ [memberEntry 50 .waiting, memberEntry 51 .resolved], x.freeable = false) ∧
    (∀ e ∈ s.cap.table, e.tag ≠ .cadence 0 26 ∧ e.tag ≠ .station 5 0) ∧ s.joined = true := by decide +kernel

theorem test_meets_entry_events :
    let strobes := { Capture.reset with strobe0 := ⟨true, some 5000500⟩, strobe1 := ⟨true, some 5000800⟩ }
    let s := withEntries { joined with cap := strobes } [memberEntry 4 .waiting, ownEntry 2 .collecting]
    s.tagged? (.cadence 0 4) = some (memberEntry 4 .waiting) ∧ s.tagged? (.station 5 2) = some (ownEntry 2 .collecting) ∧
    s.uidsSound = true ∧ later (6000050 - s.time.correction) (s.elapse (after 1000050)).time.localTime = false ∧
    later (5100000 - s.time.correction) (s.elapse (after 100000)).time.localTime = false ∧ s.link.count < 12 ∧
    later (5000050 - s.time.correction) (s.elapse (after 50)).time.localTime = false ∧
    later 5000500 (s.elapse (after 500)).time.localTime = false ∧ later 5000800 (s.elapse (after 800)).time.localTime = false := by
  decide +kernel

/-- A fire outside JOINED, with no origin place, with its tag declined, and with room. -/
theorem test_meets_fire : (station .withdrawn).joined = false ∧ joined.joined = true ∧ joined.originCount < 4 ∧
    joined.cap.table.length < 16 ∧ joined.link.count < 11 ∧ joined.uidsSound = true ∧
    4 ≤ (withEntries joined [ownEntry 1 .collecting, ownEntry 2 .collecting, ownEntry 3 .collecting,
      ownEntry 4 .collecting]).originCount ∧
    Tag.station 5 0 ∈ ({ joined with cap := { joined.cap with declined := [.station 5 0] } }).cap.declined := by
  decide +kernel

theorem test_meets_encoder_step : joined.running = true ∧ joined.image.modes.get 0 ≠ .off ∧
    (joined.trig.chans.get 0).lines ≠ ⟨true, false, false⟩ := by decide +kernel

/-- T1, crossed upwards at 3, and T0, whose pattern begins to hold, fire at one step: the named one comes first, and with
none named the PATTERN term. -/
theorem test_named_fire_comes_first :
    let s := { joined with
      chans := joined.chans.set 0 { Channel.reset with count := 2 }
      trig := { joined.trig with inputs := joined.trig.inputs.set 0 ⟨true, 4000000⟩ } }
    let fired (t : State) := t.cap.table.map fun e => e.origin.bind Origin.term
    nextHas (exec (.encoderStep (after 1) 0 true false false [1]) s) (fun t => fired t = [some 1, some 0]) ∧
    nextHas (exec (.encoderStep (after 1) 0 true false false []) s) (fun t => fired t = [some 0, some 1]) := by
  decide +kernel

/-- Two PATTERN terms on D0 fire at one filtered change, of which the command names T1. -/
theorem test_named_input_fire_comes_first :
    let onD0 : TermConfig := { image.terms.x0 with condition := .pattern 8 8 }
    let s := { joined with
      image := { image with terms := (image.terms.set 0 onD0).set 1 onD0 }
      trig := { joined.trig with
        filters := joined.trig.filters.set 0 [⟨true, 5000001⟩]
        terms := joined.trig.terms.set 1 ⟨.armed, false, true, false⟩ } }
    nextHas (exec (.filteredInputChange (after 1) 0 [1]) s)
      (fun t => decide ((t.cap.table.map fun e => e.origin.bind Origin.term) = [some 1, some 0])) := by decide +kernel

theorem test_meets_causes :
    let s := { joined with pins := { joined.pins with causes := joined.pins.causes.set 0 ⟨true, false, false⟩ } }
    (joined.pins.causes.get 0).get .a = false ∧ (s.pins.causes.get 0).get .a = true ∧ joined.running = true ∧
    (joined.image.monitors.get 0).get .a = true ∧
    (let u := joined.onChannel 0 fun c => { c with timer := some 5000003 };
      (u.chans.get 0).timer = some 5000003 ∧ later 5000003 (u.elapse (after 3)).time.localTime = false) := by decide +kernel

theorem test_meets_inputs :
    let s := { joined with trig := { joined.trig with filters := joined.trig.filters.set 1 [⟨true, 5000001⟩] } }
    joined.running = true ∧ joined.pins.inputs.get 1 ≠ true ∧ s.trig.filters.get 1 = ⟨true, 5000001⟩ :: [] ∧
    later (5000001 + BitVec.ofNat 48 (s.image.filters.get 1)) (s.elapse (after 11)).time.localTime = false ∧
    (let u := joined.onTerm 0 fun t => { t with state := .holdoff 5000020 };
      (u.trig.terms.get 0).state = .holdoff 5000020 ∧ later 5000020 (u.elapse (after 20)).time.localTime = false) := by decide +kernel

end Sys2Proof.Tests
end

/-!
PROOFS. The resolution of a local time in a sample ring (R55).
-/

namespace Sys2Proof.Machine

/-! ### The search in a ring whose oldest sample is not later -/

@[simp] theorem bracket_singleton (l : Time) (x : Sample) : bracket l [x] = .notYet := rfl

theorem bracket_cons_of_later {l : Time} {y : Sample} (hy : later y.time l = true) (x : Sample) (rest : List Sample) :
    bracket l (x :: y :: rest) = .pair x y := by simp [bracket, hy]

theorem bracket_cons_of_not_later {l : Time} {y : Sample} (hy : later y.time l = false) (x : Sample)
    (rest : List Sample) : bracket l (x :: y :: rest) = bracket l (y :: rest) := by simp [bracket, hy]

theorem bracket_ne_stale (l : Time) (x : Sample) (rest : List Sample) : bracket l (x :: rest) ≠ .stale := by
  induction rest generalizing x with
  | nil => simp
  | cons y rest ih =>
    cases hy : later y.time l with
    | true => simp [bracket_cons_of_later hy]
    | false => simpa [bracket_cons_of_not_later hy] using ih y

theorem bracket_eq_notYet_iff (l : Time) (x : Sample) (rest : List Sample) :
    bracket l (x :: rest) = .notYet ↔ ∀ y ∈ rest, later y.time l = false := by
  induction rest generalizing x with
  | nil => simp
  | cons y rest ih =>
    cases hy : later y.time l with
    | true => simp [bracket_cons_of_later hy, hy]
    | false => simp [bracket_cons_of_not_later hy, ih, hy]

/-- The oldest sample of a ring is among those up to any sample of it. -/
theorem oldest_mem_of_cons_eq {x before : Sample} {rest older newer : List Sample}
    (hring : x :: rest = older ++ before :: newer) : x ∈ older ++ [before] := by
  cases older with
  | nil => simp_all
  | cons z older => simp_all

/-- The search stops at the first later sample, and nothing before it is later. -/
theorem bracket_eq_pair_iff {l : Time} {x : Sample} (hx : later x.time l = false) (rest : List Sample)
    (before after : Sample) :
    bracket l (x :: rest) = .pair before after ↔
      ∃ older newer, x :: rest = older ++ before :: after :: newer ∧
        (∀ y ∈ older ++ [before], later y.time l = false) ∧ later after.time l = true := by
  induction rest generalizing x with
  | nil => simp [List.cons_eq_append_iff]
  | cons y rest ih =>
    cases hy : later y.time l with
    | true =>
      rw [bracket_cons_of_later hy]
      constructor
      · rintro ⟨⟩
        exact ⟨[], rest, rfl, by simpa using hx, hy⟩
      · rintro ⟨older, newer, hring, hold, -⟩
        cases older with
        | nil => simp_all
        | cons z older =>
          obtain ⟨-, htail⟩ := List.cons.inj hring
          have hmem : y ∈ z :: older ++ [before] := List.mem_cons_of_mem z (oldest_mem_of_cons_eq htail)
          simp [hold y hmem] at hy
    | false =>
      rw [bracket_cons_of_not_later hy, ih hy]
      constructor
      · rintro ⟨older, newer, hring, hold, hafter⟩
        exact ⟨x :: older, newer, by simp [hring], by simpa [hx] using hold, hafter⟩
      · rintro ⟨older, newer, hring, hold, hafter⟩
        cases older with
        | nil => simp_all
        | cons z older =>
          obtain ⟨-, htail⟩ := List.cons.inj hring
          exact ⟨older, newer, htail, fun y h => hold y (List.mem_cons_of_mem z h), hafter⟩

/-! ### Resolution -/

@[simp] theorem resolve_nil (l : Time) : resolve [] l = .notYet := rfl

theorem resolve_cons_of_later {l : Time} {x : Sample} (hx : later x.time l = true) (rest : List Sample) :
    resolve (x :: rest) l = .stale := by simp [resolve, hx]

/-- A search that finds no later sample answers *not yet*, as the test before it does. -/
theorem resolve_cons_of_not_later {l : Time} {x : Sample} (hx : later x.time l = false) (rest : List Sample) :
    resolve (x :: rest) l = bracket l (x :: rest) := by
  by_cases hany : rest.any (fun y => later y.time l) = true
  · simp [resolve, hx, hany]
  · have none_later : ∀ y ∈ rest, later y.time l = false := by simpa using hany
    rw [(bracket_eq_notYet_iff l x rest).mpr none_later]
    simp [resolve, hx, hany]

theorem resolve_eq_notYet_iff (ring : List Sample) (l : Time) :
    resolve ring l = .notYet ↔ ∀ x ∈ ring, later x.time l = false := by
  cases ring with
  | nil => simp
  | cons x rest =>
    cases hx : later x.time l with
    | true => simp [resolve_cons_of_later hx, hx]
    | false => simp [resolve_cons_of_not_later hx, bracket_eq_notYet_iff, hx]

theorem resolve_eq_stale_iff (ring : List Sample) (l : Time) :
    resolve ring l = .stale ↔ ∃ oldest newer, ring = oldest :: newer ∧ later oldest.time l = true := by
  cases ring with
  | nil => simp
  | cons x rest =>
    cases hx : later x.time l with
    | true => simp [resolve_cons_of_later hx, hx]
    | false => simp [resolve_cons_of_not_later hx, bracket_ne_stale, hx]

theorem resolve_eq_pair_iff (ring : List Sample) (l : Time) (before after : Sample) :
    resolve ring l = .pair before after ↔
      ∃ older newer, ring = older ++ before :: after :: newer ∧
        (∀ y ∈ older ++ [before], later y.time l = false) ∧ later after.time l = true := by
  cases ring with
  | nil => simp
  | cons x rest =>
    cases hx : later x.time l with
    | false => rw [resolve_cons_of_not_later hx, bracket_eq_pair_iff hx]
    | true =>
      rw [resolve_cons_of_later hx]
      simp only [reduceCtorEq, false_iff]
      rintro ⟨older, newer, hring, hold, -⟩
      simp [hold x (oldest_mem_of_cons_eq hring)] at hx

/-! ### A ring of samples one period apart -/

/-- R72: over less than half the range of a time, one that became later stays so. -/
theorem later_add_of_later_add {start l : Time} {m n : Nat} (hstart : later start l = false)
    (hm : later (start + BitVec.ofNat 48 m) l = true) (hmn : m ≤ n) (hn : n < 2 ^ 46) :
    later (start + BitVec.ofNat 48 n) l = true := by
  simp only [later, decide_eq_true_eq, decide_eq_false_iff_not] at *
  bv_omega

/-- In a ring that spans less than half the range of a time, every sample behind a pair is later once its first is. -/
theorem later_newer_of_spaced {start l : Time} {period : Nat} {older newer : List Sample} {before after : Sample}
    (hperiod : period ≤ 1000) (hlen : (older ++ before :: after :: newer).length ≤ 512)
    (hspaced : ∀ (k : Nat) (x : Sample), (older ++ before :: after :: newer)[k]? = some x →
      x.time = start + BitVec.ofNat 48 (k * period))
    (hold : ∀ x ∈ older ++ [before], later x.time l = false) (hafter : later after.time l = true) :
    ∀ x ∈ after :: newer, later x.time l = true := by
  intro x hx
  obtain ⟨j, hj⟩ := List.mem_iff_getElem?.mp hx
  have hbound : j < (after :: newer).length := (List.getElem?_eq_some_iff.mp hj).1
  have hfirst : later start l = false := by
    obtain ⟨oldest, rest, hring⟩ : ∃ oldest rest, older ++ before :: after :: newer = oldest :: rest :=
      List.exists_cons_of_ne_nil (by simp)
    have holdest : oldest.time = start + BitVec.ofNat 48 (0 * period) := hspaced 0 oldest (by simp [hring])
    simpa [holdest] using hold oldest (oldest_mem_of_cons_eq hring.symm)
  have hafterTime : after.time = start + BitVec.ofNat 48 ((older.length + 1) * period) :=
    hspaced _ _ (by simp)
  have hxTime : x.time = start + BitVec.ofNat 48 ((older.length + 1 + j) * period) :=
    hspaced _ _ (by simpa [List.getElem?_append_right, Nat.add_assoc, Nat.add_comm 1] using hj)
  rw [hxTime]
  refine later_add_of_later_add hfirst (hafterTime ▸ hafter) (Nat.mul_le_mul_right _ (by omega)) ?_
  have hindex : older.length + 1 + j ≤ 512 := by
    simp only [List.length_append, List.length_cons] at hlen hbound; omega
  calc (older.length + 1 + j) * period ≤ 512 * 1000 := Nat.mul_le_mul hindex hperiod
    _ < 2 ^ 46 := by decide

end Sys2Proof.Machine

namespace Sys2Proof

open Machine

/-- Settles O51: the search gives the pair at the first later sample (`resolve_eq_pair_iff`), and the spacing of the ring
makes every sample behind it later (`later_newer_of_spaced`). -/
theorem ringResolution : Obligations.RingResolution := by
  intro ring start l period _ hperiod hlen hspaced
  refine ⟨resolve_eq_notYet_iff ring l, resolve_eq_stale_iff ring l, fun before after => ?_⟩
  rw [resolve_eq_pair_iff]
  constructor
  · rintro ⟨older, newer, rfl, hold, hafter⟩
    exact ⟨older, newer, rfl, hold, later_newer_of_spaced hperiod hlen hspaced hold hafter⟩
  · rintro ⟨older, newer, hring, hold, hnewer⟩
    exact ⟨older, newer, hring, hold, hnewer after List.mem_cons_self⟩

end Sys2Proof

/-!
PROOFS. The SYNC line, the FAULT line and the blocked flags after a command (R92, R113, R123).
-/

namespace Sys2Proof.Machine

/-! ### What every command is made of -/

/-- Whatever the command, its effect is followed by the settling step. -/
theorem exec_settled (c : Instr) (s : State) : ∃ u : State, exec c s = .next u.settle := by
  cases c <;> exact ⟨_, rfl⟩

theorem State.linesSound_iff (s : State) :
    s.linesSound = true ↔ s.ctrl.syncLine = s.syncHolds ∧ s.ctrl.faultLine = s.faultHolds ∧
      ∀ k : TermNo, (s.trig.terms.get k).blocked = (s.image.terms.get k).condition.blocked s.chans := by
  simp [State.linesSound, mem_four, and_assoc]

/-- R92, R113, R123: the settling step makes the lines and flags stand as their conditions do, which it leaves alone. -/
theorem State.settle_linesSound (s : State) : s.settle.linesSound = true :=
  s.settle.linesSound_iff.mpr ⟨rfl, rfl, fun k => by simp [State.trackTerms]⟩

theorem exec_linesSound {c : Instr} {s t : State} (h : exec c s = .next t) : t.linesSound = true := by
  obtain ⟨u, hu⟩ := exec_settled c s
  obtain rfl : u.settle = t := Host.Outcome.next.inj (hu.symm.trans h)
  exact u.settle_linesSound

/-! ### The conditions -/

theorem State.syncHolds_iff (s : State) :
    s.syncHolds = true ↔ s.ctrl.lifecycle = .joined ∧ s.time.state = .locked := by
  simp [State.syncHolds]

theorem State.faultHolds_iff (s : State) :
    s.faultHolds = true ↔
      (∃ i : Chan, s.image.modes.get i ≠ .off ∧
        ((s.chans.get i).quality = .fault ∨ (s.chans.get i).recA.latched = true ∨ (s.chans.get i).recB.latched = true ∨
          (s.chans.get i).recR.latched = true)) ∨
      s.ctrl.lifecycle = .halted ∨ s.ctrl.lifecycle = .muted := by
  simp [State.faultHolds, State.active, Channel.anyLatched, mem_four, or_assoc]

/-! ### The doubtful signals in the bit order of R184 -/

theorem LineRecord.doubtful_iff (r : LineRecord) : r.doubtful = true ↔ r.cause = true ∨ r.latched = true := by
  simp [LineRecord.doubtful]

theorem Channel.doubtWord_bits (c : Channel) :
    c.doubtWord.getLsbD 2 = c.recA.doubtful ∧ c.doubtWord.getLsbD 1 = c.recB.doubtful ∧
      c.doubtWord.getLsbD 0 = c.recR.doubtful := by
  change BitVec.getLsbD (w := 1 + 1 + 1) (_ ++ _) 2 = _ ∧ BitVec.getLsbD (w := 1 + 1 + 1) (_ ++ _) 1 = _ ∧
    BitVec.getLsbD (w := 1 + 1 + 1) (_ ++ _) 0 = _
  simp only [BitVec.getLsbD_append]
  simp

/-- Which part of the word a bit lies in: the digital inputs lowest, channel 0 highest. -/
theorem doubtSignals_getLsbD (chans : Four Channel) (n : Nat) :
    (doubtSignals chans).getLsbD n =
      if n < 4 then false
      else if n < 7 then chans.x3.doubtWord.getLsbD (n - 4)
      else if n < 10 then chans.x2.doubtWord.getLsbD (n - 7)
      else if n < 13 then chans.x1.doubtWord.getLsbD (n - 10)
      else chans.x0.doubtWord.getLsbD (n - 13) := by
  change BitVec.getLsbD (w := 3 + 3 + 3 + 3 + 4) (_ ++ _) n = _
  simp only [BitVec.getLsbD_append]
  grind

/-- The three signals of channel `i`, from bit 15 - 3 i down. -/
theorem doubtSignals_bits (chans : Four Channel) (i : Chan) :
    (doubtSignals chans).getLsbD (15 - 3 * i.val) = (chans.get i).recA.doubtful ∧
      (doubtSignals chans).getLsbD (14 - 3 * i.val) = (chans.get i).recB.doubtful ∧
      (doubtSignals chans).getLsbD (13 - 3 * i.val) = (chans.get i).recR.doubtful := by
  have hword := (chans.get i).doubtWord_bits
  simp only [doubtSignals_getLsbD]
  fin_cases i <;> simpa [Four.get] using hword

/-- The digital inputs have no line supervision and are never in doubt. -/
theorem doubtSignals_input (chans : Four Channel) {n : Nat} (h : n < 4) : (doubtSignals chans).getLsbD n = false := by
  simp [doubtSignals_getLsbD, h]

theorem and_ne_zero_iff {w : Nat} (x y : BitVec w) :
    x &&& y ≠ 0 ↔ ∃ n < w, x.getLsbD n = true ∧ y.getLsbD n = true := by
  simp [BitVec.eq_of_getLsbD_eq_iff]

/-- A bit of a signal word below 16 is a channel's A, B or R, or a digital input. -/
theorem signalBit_cases {n : Nat} (h : n < 16) :
    n < 4 ∨ ∃ i : Chan, n = 15 - 3 * i.val ∨ n = 14 - 3 * i.val ∨ n = 13 - 3 * i.val := by
  by_cases hn : n < 4
  · exact .inl hn
  · exact .inr ⟨⟨(15 - n) / 3, by omega⟩, by dsimp only; omega⟩

theorem Condition.blocked_pattern_iff (signals required : BitVec 16) (chans : Four Channel) :
    (Condition.pattern signals required).blocked chans = true ↔ ∃ i : Chan,
      (signals.getLsbD (15 - 3 * i.val) = true ∧
        ((chans.get i).recA.cause = true ∨ (chans.get i).recA.latched = true)) ∨
      (signals.getLsbD (14 - 3 * i.val) = true ∧
        ((chans.get i).recB.cause = true ∨ (chans.get i).recB.latched = true)) ∨
      (signals.getLsbD (13 - 3 * i.val) = true ∧
        ((chans.get i).recR.cause = true ∨ (chans.get i).recR.latched = true)) := by
  rw [Condition.blocked, decide_eq_true_eq, and_ne_zero_iff]
  simp only [← LineRecord.doubtful_iff]
  constructor
  · rintro ⟨n, hn, hdoubt, hsignal⟩
    rcases signalBit_cases hn with hinput | ⟨i, hbit⟩
    · simp [doubtSignals_input chans hinput] at hdoubt
    · obtain ⟨hA, hB, hR⟩ := doubtSignals_bits chans i
      rcases hbit with rfl | rfl | rfl
      · exact ⟨i, .inl ⟨hsignal, hA ▸ hdoubt⟩⟩
      · exact ⟨i, .inr (.inl ⟨hsignal, hB ▸ hdoubt⟩)⟩
      · exact ⟨i, .inr (.inr ⟨hsignal, hR ▸ hdoubt⟩)⟩
  · rintro ⟨i, hbit⟩
    obtain ⟨hA, hB, hR⟩ := doubtSignals_bits chans i
    rcases hbit with ⟨hsignal, hdoubt⟩ | ⟨hsignal, hdoubt⟩ | ⟨hsignal, hdoubt⟩
    · exact ⟨15 - 3 * i.val, by omega, hA.trans hdoubt, hsignal⟩
    · exact ⟨14 - 3 * i.val, by omega, hB.trans hdoubt, hsignal⟩
    · exact ⟨13 - 3 * i.val, by omega, hR.trans hdoubt, hsignal⟩

end Sys2Proof.Machine

namespace Sys2Proof

open Machine

/-- Settles O3: every command ends with the settling step (`exec_linesSound`); what is left is to read the conditions it
tests off the state, the blocked flag by the kind of the term. -/
theorem flagsFollowEveryCommand : Obligations.FlagsFollowEveryCommand := by
  intro c s t h
  obtain ⟨hsync, hfault, hblocked⟩ := t.linesSound_iff.mp (exec_linesSound h)
  refine ⟨hsync ▸ t.syncHolds_iff, hfault ▸ t.faultHolds_iff, fun k => ?_⟩
  rw [hblocked k]
  cases (t.image.terms.get k).condition with
  | none => simp [Condition.blocked]
  | cross chan direction threshold => simp [Condition.blocked]
  | pattern signals required => exact Condition.blocked_pattern_iff signals required t.chans

end Sys2Proof

/-!
PROOFS. The midpoint of the offset set (R86).
-/

namespace Sys2Proof.Machine

/-! ### The outer values of a set in ascending order -/

theorem smallest_eq {xs : List Int} {m : Int} (hmem : m ∈ xs) (hle : ∀ x ∈ xs, m ≤ x) : smallest xs = m := by
  have hmin : xs.min? = some m := List.min?_eq_some_iff.mpr ⟨hmem, hle⟩
  cases xs with
  | nil => simp at hmem
  | cons x rest => exact Option.some.inj hmin

theorem largest_eq {xs : List Int} {m : Int} (hmem : m ∈ xs) (hle : ∀ x ∈ xs, x ≤ m) : largest xs = m := by
  have hmax : xs.max? = some m := List.max?_eq_some_iff.mpr ⟨hmem, hle⟩
  cases xs with
  | nil => simp at hmem
  | cons x rest => exact Option.some.inj hmax

/-- The smallest value stands first in ascending order. -/
theorem smallest_of_sorted {S xs : List Int} (hsorted : S.Pairwise (· ≤ ·)) (hperm : S.Perm xs) :
    smallest xs = S.getD 0 0 := by
  cases S with
  | nil => cases hperm.nil_eq; rfl
  | cons a rest =>
    have hle : ∀ x ∈ a :: rest, a ≤ x := by simpa using fun x => List.rel_of_pairwise_cons hsorted
    exact smallest_eq (hperm.mem_iff.mp List.mem_cons_self) fun x hx => hle x (hperm.mem_iff.mpr hx)

/-- The largest value stands last in ascending order. -/
theorem largest_of_sorted {S xs : List Int} (hsorted : S.Pairwise (· ≤ ·)) (hperm : S.Perm xs) :
    largest xs = S.getD (S.length - 1) 0 := by
  rcases S.eq_nil_or_concat' with rfl | ⟨init, b, rfl⟩
  · cases hperm.nil_eq; rfl
  · have hle : ∀ x ∈ init ++ [b], x ≤ b := by
      simpa [or_imp, forall_and] using (List.pairwise_append.mp hsorted).2.2
    have hlargest : largest xs = b := largest_eq (hperm.mem_iff.mp (by simp)) fun x hx => hle x (hperm.mem_iff.mpr hx)
    simpa using hlargest

/-! ### The values that remain -/

/-- R86: of four values or more, the outer two are dropped. -/
theorem trim_perm_of_sorted {a b : Int} {inner xs : List Int} (hsorted : (a :: (inner ++ [b])).Pairwise (· ≤ ·))
    (hperm : (a :: (inner ++ [b])).Perm xs) (hlen : 4 ≤ (a :: (inner ++ [b])).length) : inner.Perm (trim xs) := by
  have hsmallest : smallest xs = a := smallest_of_sorted hsorted hperm
  have hlargest : largest xs = b := by simpa using largest_of_sorted hsorted hperm
  have hswap : (b :: a :: inner).Perm xs :=
    (List.perm_append_comm (l₁ := [b]) (l₂ := a :: inner)).trans hperm
  have hdropped : inner.Perm ((xs.erase b).erase a) := by simpa using (hswap.erase b).erase a
  rw [trim, if_pos (hperm.length_eq ▸ hlen), hlargest, hsmallest]
  exact hdropped

theorem getD_succ_inner (a b : Int) {inner : List Int} {i : Nat} (h : i < inner.length) :
    (a :: (inner ++ [b])).getD (i + 1) 0 = inner.getD i 0 := by
  rw [List.getD_cons_succ, List.getD_append _ _ _ _ h]

/-- R86: the midpoint read off the values in ascending order. -/
theorem midpoint_of_sorted {S xs : List Int} (hsorted : S.Pairwise (· ≤ ·)) (hperm : S.Perm xs) :
    midpoint xs =
      if 4 ≤ S.length then (S.getD 1 0 + S.getD (S.length - 2) 0).tdiv 2
      else (S.getD 0 0 + S.getD (S.length - 1) 0).tdiv 2 := by
  by_cases hlen : 4 ≤ S.length
  · obtain ⟨a, tail, rfl⟩ := List.exists_cons_of_length_pos (l := S) (by omega)
    obtain ⟨inner, b, rfl⟩ := tail.eq_nil_or_concat'.resolve_left (by rintro rfl; simp at hlen)
    have htrim := trim_perm_of_sorted hsorted hperm hlen
    have hinner : inner.Pairwise (· ≤ ·) := (List.pairwise_append.mp (List.Pairwise.of_cons hsorted)).1
    have hpos : 0 < inner.length := by
      simp only [List.length_cons, List.length_append, List.length_nil] at hlen; omega
    have hpenult : (a :: (inner ++ [b])).length - 2 = inner.length - 1 + 1 := by
      simp only [List.length_cons, List.length_append, List.length_nil]; omega
    rw [if_pos hlen, midpoint, smallest_of_sorted hinner htrim, largest_of_sorted hinner htrim, hpenult,
      getD_succ_inner a b hpos, getD_succ_inner a b (by omega)]
  · have htrim : trim xs = xs := if_neg (hperm.length_eq ▸ hlen)
    rw [if_neg hlen, midpoint, htrim, smallest_of_sorted hsorted hperm, largest_of_sorted hsorted hperm]

end Sys2Proof.Machine

namespace Sys2Proof

open Machine

/-- Settles O48: the votes beside the station's 0 are the offset set, and its midpoint depends only on the values in
ascending order (`midpoint_of_sorted`). -/
theorem midpointRule : Obligations.MidpointRule := by
  intro t S hsorted hperm
  have hmid := midpoint_of_sorted (xs := 0 :: t.votes) hsorted hperm
  refine ⟨hmid, ?_⟩
  rintro rfl
  exact hmid

end Sys2Proof

/-!
PROOFS. The comparison of times (R72).
-/

namespace Sys2Proof.Machine

/-! ### The distance of two times on the clock's circle -/

/-- R72: how far `a` lies ahead of `b`, modulo 2^48. -/
def ahead (a b : Time) : Nat := (a.toNat + 2 ^ 48 - b.toNat) % 2 ^ 48

theorem toNat_sub_eq_ahead (a b : Time) : (a - b).toNat = ahead a b := by
  simp only [ahead]; bv_omega

theorem ahead_lt (a b : Time) : ahead a b < 2 ^ 48 := Nat.mod_lt _ (by decide)

/-- The two ways round the circle make one turn, or both are 0. -/
theorem ahead_swap (a b : Time) : ahead b a = (2 ^ 48 - ahead a b) % 2 ^ 48 := by
  have ha := a.isLt
  have hb := b.isLt
  simp only [ahead]; omega

theorem ahead_eq_zero_iff (a b : Time) : ahead a b = 0 ↔ a = b := by
  rw [← toNat_sub_eq_ahead]
  bv_omega

theorem later_iff_ahead (a b : Time) : later a b = true ↔ 1 ≤ ahead a b ∧ ahead a b ≤ 2 ^ 47 - 1 := by
  rw [later, toNat_sub_eq_ahead, decide_eq_true_eq]

/-- R72: the difference is the distance ahead where that is under half a turn, and less by a turn where it is not. -/
theorem timeDiff_eq_ahead (a b : Time) :
    timeDiff a b = if ahead a b < 2 ^ 47 then (ahead a b : Int) else (ahead a b : Int) - 2 ^ 48 := by
  rw [timeDiff, BitVec.toInt_eq_toNat_cond, toNat_sub_eq_ahead]
  split <;> split <;> omega

/-! ### The difference as a number -/

theorem timeDiff_bounds (a b : Time) : -(2 : Int) ^ 47 ≤ timeDiff a b ∧ timeDiff a b ≤ 2 ^ 47 - 1 := by
  have hlt := ahead_lt a b
  rw [timeDiff_eq_ahead]
  split <;> omega

/-- The difference is the plain one of the two counts up to whole turns. -/
theorem dvd_timeDiff_sub (a b : Time) : (2 : Int) ^ 48 ∣ timeDiff a b - ((a.toNat : Int) - (b.toNat : Int)) := by
  have hb := b.isLt
  rw [timeDiff_eq_ahead]
  split <;> (simp only [ahead]; omega)

theorem later_iff_timeDiff_pos (a b : Time) : later a b = true ↔ 0 < timeDiff a b := by
  have hlt := ahead_lt a b
  rw [later_iff_ahead, timeDiff_eq_ahead]
  split <;> omega

theorem timeDiff_eq_zero_iff (a b : Time) : timeDiff a b = 0 ↔ a = b := by
  have hlt := ahead_lt a b
  rw [← ahead_eq_zero_iff, timeDiff_eq_ahead]
  split <;> omega

/-- Turned round, the difference changes its sign, but for two times half a turn apart. -/
theorem timeDiff_swap (a b : Time) :
    timeDiff b a = if timeDiff a b = -(2 : Int) ^ 47 then -(2 : Int) ^ 47 else -timeDiff a b := by
  have hlt := ahead_lt a b
  rw [timeDiff_eq_ahead b a, ahead_swap, timeDiff_eq_ahead a b]
  split <;> split <;> split <;> omega

theorem later_swap_iff (a b : Time) : later b a = true ↔ timeDiff a b < 0 ∧ timeDiff a b ≠ -(2 : Int) ^ 47 := by
  rw [later_iff_timeDiff_pos, timeDiff_swap]
  split <;> omega

theorem later_eq_false_iff (a b : Time) : later a b = false ↔ timeDiff a b ≤ 0 := by
  rw [← Bool.not_eq_true, later_iff_timeDiff_pos, not_lt]

end Sys2Proof.Machine

namespace Sys2Proof

open Machine

/-- Settles O46: each clause is a fact about the distance the one time lies ahead of the other on a circle of 2^48
ticks. -/
theorem timesCompare : Obligations.TimesCompare := by
  intro a b
  refine ⟨later_iff_ahead a b, timeDiff_bounds a b, dvd_timeDiff_sub a b, later_iff_timeDiff_pos a b,
    timeDiff_eq_zero_iff a b, later_swap_iff a b, fun hhalf => ?_⟩
  have hback : timeDiff b a = -(2 : Int) ^ 47 := by rw [timeDiff_swap, if_pos hhalf]
  refine ⟨(later_eq_false_iff a b).mpr (by omega), (later_eq_false_iff b a).mpr (by omega), ?_, hback⟩
  rw [Ne, ← timeDiff_eq_zero_iff]
  omega

end Sys2Proof

/-!
PROOFS. What every command is made of: the lapse, its effect and the settling step; and the elementary updates every
effect is composed of, each with the condition under which the rules allow it. The invariants are proved of the updates
once, and hold of every step by `step_keeps`.
-/

namespace Sys2Proof.Machine

-- one declaration after the other: fewer threads at a time
set_option Elab.async false

/-! ### Commands and their effects -/

/-- What a command does once its lapse has passed, before the lines and flags follow. -/
def effect (c : Instr) (s : State) : State :=
  match c with
  | .powerOnReset _ => s.resetCondition .powerOn .below150
  | .supplyLowReset _ => s.resetCondition .supplyLow .below270
  | .pinReset _ => s.resetCondition .pin .nrstLow
  | .resetRelease _ straps supplyNormal => s.resetRelease straps supplyNormal
  | .configReadAttempt _ image => s.configRead image
  | .listenTimerExpiry _ => s.listenExpiry
  | .supplyWarning _ => s.supplyWarning
  | .supplyClear _ => s.supplyClear
  | .beaconArrival _ frame edge => s.stampedArrival frame edge Body.isBeacon deliverBeacon
  | .leaveArrival _ frame => s.arrival frame Body.isLeave deliverLeave
  | .callArrival _ frame => s.arrival frame Body.isCall deliverCall
  | .reportArrival _ frame => s.arrival frame Body.isReport deliverReport
  | .closeArrival _ frame => s.arrival frame Body.isClose deliverClose
  | .presetArrival _ frame => s.arrival frame Body.isPreset deliverPreset
  | .statusRequest _ frame => s.arrival frame (Body.isRequest Request.isStatus) deliverRequest
  | .termControlArm _ frame => s.arrival frame (Body.isRequest Request.isArm) deliverRequest
  | .termControlDisarm _ frame => s.arrival frame (Body.isRequest Request.isDisarm) deliverRequest
  | .faultAck _ frame => s.arrival frame (Body.isRequest Request.isFaultAck) deliverRequest
  | .unknownRequest _ frame => s.arrival frame (Body.isRequest Request.isUnknown) deliverRequest
  | .replyArrival _ frame => s.arrival frame Body.isReply (fun _ _ s => s)
  | .frameStart _ => s.frameStart
  | .lostArbitration _ => s.lostArbitration
  | .bitError _ => s.bitError
  | .frameSent _ => s.frameSent
  | .quietEnd _ => s.quietEnd
  | .beaconSlot _ => s.beaconSlot
  | .sampleInstant _ => s.sampleInstant
  | .cadenceMoment _ group => s.cadenceMoment group
  | .retentionEnd _ tag => s.retentionEnd tag
  | .collectionDeadline _ tag => s.collectionDeadline tag
  | .strobeInstant _ tag => s.strobeInstant tag
  | .strobePulseEnd _ strobe => s.strobePulseEnd strobe
  | .presetDue _ => s.takePresetDue
  | .encoderStep _ chan a b r first => s.encoderStep chan ⟨a, b, r⟩ first
  | .lineCauseAppears _ chan line => s.causeAppears chan line
  | .lineCauseDisappears _ chan line => s.causeDisappears chan line
  | .autoAckTimerExpiry _ chan => s.autoAck chan
  | .digitalInputRawChange _ input level => s.rawChange input level
  | .filteredInputChange _ input first => s.filteredChange input first
  | .holdoffExpiry _ term => s.holdoffExpiry term
  | .furtherResetCondition _ condition => s.furtherReset condition
  | .framingError _ kind => s.framingError kind
  | .busIdle _ => s.becomeIdle

theorem exec_eq_effect (c : Instr) (s : State) : exec c s = .next (effect c (s.elapse c.elapsed)).settle := by
  cases c <;> rfl

theorem exec_eq_next_iff {c : Instr} {s t : State} : exec c s = .next t ↔ t = (effect c (s.elapse c.elapsed)).settle := by
  rw [exec_eq_effect, Host.Outcome.next.injEq, eq_comm]

/-- What every lapse, every effect and the settling step keep, every step keeps, whatever commands wait. -/
theorem step_keeps {P : State → Prop} (hwaiting : ∀ s q, P s → P (s.withPending q)) (hlapse : ∀ s dt, P s → P (s.elapse dt))
    (heffect : ∀ c s, P s → P (effect c s)) (hsettle : ∀ s, P s → P s.settle) {s t : State} (h : step s = .next t)
    (hs : P s) : P t := by
  have hexec : ∀ c u, P u → exec c u = .next t → P t := by
    intro c u hu he
    rw [exec_eq_next_iff.mp he]
    exact hsettle _ (heffect _ _ (hlapse _ _ hu))
  rcases step_cases h with ⟨c, rest, -, he⟩ | ⟨c, -, -, he⟩ | ⟨-, -, rfl⟩
  · exact hexec c _ (hwaiting _ _ hs) he
  · exact hexec c s hs he
  · exact hlapse _ _ hs

/-! ### The receiver and what it follows -/

/-- R133, R134, R137, R139: what the receiver and the bus agree on (`State.receiverSound`), clause by clause. -/
structure LinkUnit.Followed (l : LinkUnit) (running : Bool) : Prop where
  ready : l.receiver = .ready → l.busIdle = true
  sending : l.sending = true → running = true ∧ ∃ edge, l.receiver = .taking edge
  mark : l.mark ≠ none → l.receiver = .waiting

theorem State.receiverSound_iff (s : State) : s.receiverSound = true ↔ s.link.Followed s.running := by
  have key : s.receiverSound = true ↔ (s.link.receiver = .ready → s.link.busIdle = true) ∧
      (s.link.sending = true → s.running = true ∧ ∃ edge, s.link.receiver = .taking edge) ∧
      (s.link.mark ≠ none → s.link.receiver = .waiting) := by
    unfold State.receiverSound
    cases s.link.receiver <;> cases s.link.sending <;> cases s.link.mark <;> simp
  exact key.trans ⟨fun ⟨a, b, c⟩ => ⟨a, b, c⟩, fun ⟨a, b, c⟩ => ⟨a, b, c⟩⟩

/-- A link unit that differs only in what the receiver does not follow. -/
theorem LinkUnit.Followed.of_same {l l' : LinkUnit} {running : Bool} (h : l.Followed running)
    (hr : l'.receiver = l.receiver) (hi : l'.idleCount = l.idleCount) (hf : l'.sending = l.sending)
    (hm : l'.mark = l.mark) : l'.Followed running := by
  have hb : l'.busIdle = l.busIdle := by simp [LinkUnit.busIdle, hi]
  exact ⟨by rw [hr, hb]; exact h.ready, by rw [hf, hr]; exact h.sending, by rw [hm, hr]; exact h.mark⟩

/-! ### The elementary updates -/

/-- What an effect is composed of. Each constructor is one update of the state, under the condition on which the rules
make it; `round` says that the correction may change (R71). -/
inductive Update (round : Prop) : State → State → Prop
  | pins (s : State) (p : Pins) : Update round s { s with pins := p }
  | trig (s : State) (g : Trigger) : Update round s { s with trig := g }
  | req (s : State) (r : RequestUnit) : Update round s { s with req := r }
  | chans (s : State) (v : Four Channel) (h : ∀ i, (s.chans.get i).sound = true → (v.get i).sound = true) :
      Update round s { s with chans := v }
  | link (s : State) (l : LinkUnit) (h : s.link.Followed s.running → l.Followed s.running) :
      Update round s (s.withLink l)
  | freeEntry (s : State) (uid : Nat) : Update round s (s.freeEntry uid)
  | remark (s : State) (g : Entry → Entry) (h : ∀ e, (g e).uid = e.uid ∧ (g e).tag = e.tag ∧ (g e).origin = e.origin) :
      Update round s { s with cap := { s.cap with table := s.cap.table.map g } }
  | dropOrigin (s : State) (uid : Nat) : Update round s (s.onEntry uid fun e => { e with origin := none })
  | origin (s : State) (uid : Nat) (f : Entry → Origin → Origin)
      (h : ∀ e o, (f e o).responders = o.responders ∧ (f e o).decliners = o.decliners) :
      Update round s (s.onEntry uid fun e => e.onOrigin (f e))
  | answer (s : State) (uid : Nat) (e : Entry) (o : Origin) (i : Ident) (declined : Bool) (he : s.entry? uid = some e)
      (ho : e.origin = some o) (hc : o.counted i = false) :
      Update round s (s.onEntry uid fun e => e.onOrigin fun o =>
        if declined then { o with decliners := o.decliners ||| identBit i }
        else { o with responders := o.responders ||| identBit i })
  | undecline (s : State) (tag : Tag) : Update round s (s.undecline tag)
  | decline (s : State) (tag : Tag) (h : s.joined = true) :
      Update round s { s with cap := { s.cap with declined := s.cap.declined ++ [tag] } }
  | addEntry (s t : State) (e : Entry) (hj : s.joined = true) (hroom : s.makeRoom = some t)
      (ho : e.origin ≠ none → s.originCount < Config.originPlaces) (htag : t.tagged? e.tag = none)
      (huid : e.uid = t.cap.nextUid) (hanswers : ∀ o, e.origin = some o → o.responders &&& o.decliners = 0) :
      Update round s (t.addEntry e)
  | nextSequence (s : State) : Update round s s.nextSequence
  | schedules (s : State) (l : List Schedule) (h : s.joined = true ∨ (s.cap.schedules = [] → l = [])) :
      Update round s { s with cap := { s.cap with schedules := l } }
  | strobes (s : State) (x y : Strobe) (hx : s.cap.strobe0.high = s.cap.strobe0.pulseEnd.isSome → x.high = x.pulseEnd.isSome)
      (hy : s.cap.strobe1.high = s.cap.strobe1.pulseEnd.isSome → y.high = y.pulseEnd.isSome) :
      Update round s { s with cap := { s.cap with strobe0 := x, strobe1 := y } }
  | leaveEnded (s : State) : Update round s s.leaveEnded
  | withdraw (s : State) (m : Monitor) (h : s.ctrl.lifecycle = .listening) :
      Update round s { s with ctrl := { s.ctrl with monitor := m, lifecycle := .withdrawn, listenTimer := none } }
  | monitor (s : State) (m : Monitor) (h : m = .normal ∨ (s.ctrl.lifecycle ≠ .listening ∧ s.ctrl.lifecycle ≠ .joined)) :
      Update round s { s with ctrl := { s.ctrl with monitor := m } }
  | listenAgain (s : State) (h : s.ctrl.lifecycle = .withdrawn) (hm : s.ctrl.monitor = .normal) : Update round s s.listenAgain
  | mute (s : State) (timer : Option Time)
      (h : s.ctrl.lifecycle = .leaving ∧ timer = s.ctrl.listenTimer ∨
        (s.ctrl.lifecycle = .listening ∨ s.ctrl.lifecycle = .withdrawn) ∧ timer = none) :
      Update round s { s with ctrl := { s.ctrl with lifecycle := .muted, listenTimer := timer } }
  | leaveJoined (s : State) (l : Lifecycle) (m : Monitor) (hj : s.joined = true) (hl : l = .leaving ∨ l = .muted) :
      Update round s { s with
        ctrl := { s.ctrl with lifecycle := l, monitor := m }
        cap := { s.cap with table := [], declined := [], schedules := [] }
        hist := { s.hist with presets := [], touched := 0 } }
  | halt (s : State) (reason : HaltReason) (hr : s.released = true) (hl : s.ctrl.lifecycle = .loading) :
      Update round s (s.halt reason)
  | readFailures (s : State) (n : Nat) : Update round s { s with ctrl := { s.ctrl with readFailures := n } }
  | start (s : State) (image : Image) (hr : s.released = true) (hl : s.ctrl.lifecycle = .loading) :
      Update round s (s.startListening image)
  | join (s : State) (hr : s.released = true) (hl : s.ctrl.lifecycle = .listening) :
      Update round s { s with ctrl := { s.ctrl with lifecycle := .joined, listenTimer := none } }
  | time (s : State) (c : Time) (x : TimeState) (l : List Peer) (slot : Option Time)
      (hpeers : (l.map Peer.ident).Sublist (s.time.peers.map Peer.ident)) (hround : round ∨ c = s.time.correction) :
      Update round s { s with time := { s.time with correction := c, state := x, peers := l, nextSlot := slot } }
  | hear (s : State) (p : Peer) (hzero : p.ident ≠ 0) (hown : p.ident ≠ s.ctrl.identity) (hr : s.released = true) :
      Update round s { s with time := { s.time with peers := putPeer p s.time.peers } }
  | presets (s : State) (l : List Preset) (touched : ChanSet) (h : l.Sublist s.hist.presets) :
      Update round s { s with hist := { s.hist with presets := l, touched := touched } }
  | addPreset (s : State) (p : Preset) (hj : s.joined = true) (hroom : s.hist.presets.length < Config.presetSize) :
      Update round s { s with hist := { s.hist with presets := insertPreset p s.hist.presets } }
  | appendSamples (s : State) (t : Time) (hr : s.running = true) (ht : s.hist.nextInstant = some t) :
      Update round s (s.appendSamples t)
  | passed (s : State) (t : Option Time) : Update round s { s with hist := { s.hist with passed := t } }

/-- Updates one after the other. -/
abbrev Updates (round : Prop) : State → State → Prop := Relation.ReflTransGen (Update round)

theorem Update.updates {round : Prop} {s t : State} (h : Update round s t) : Updates round s t := .single h

/-- What no effect but a reset's or a release's touches: the hold, the identity, the waiting commands, local time and its
place in the sample series; and outside a round the correction. -/
structure SameClock (round : Prop) (s t : State) : Prop where
  hold : t.ctrl.hold = s.ctrl.hold
  identity : t.ctrl.identity = s.ctrl.identity
  resetCause : t.ctrl.resetCause = s.ctrl.resetCause
  pending : t.pending = s.pending
  localTime : t.time.localTime = s.time.localTime
  phase : t.time.phase = s.time.phase
  correction : round ∨ t.time.correction = s.time.correction

theorem Update.sameClock {round : Prop} {s t : State} (h : Update round s t) : SameClock round s t := by
  cases h
  case time c x l slot hpeers hround => exact ⟨rfl, rfl, rfl, rfl, rfl, rfl, hround⟩
  case leaveEnded =>
    unfold State.leaveEnded
    split <;> exact ⟨rfl, rfl, rfl, rfl, rfl, rfl, .inr rfl⟩
  case addEntry t e hj hroom ho htag huid hanswers =>
    rcases s.makeRoom_cases with ⟨_, h⟩ | ⟨_, _, _, _, _, h⟩ | ⟨_, _, h⟩ <;> rw [h] at hroom <;> cases hroom <;>
      exact ⟨rfl, rfl, rfl, rfl, rfl, rfl, .inr rfl⟩
  case start image hr hl =>
    unfold State.startListening
    cases hm : s.ctrl.monitor <;> constructor <;> simp [State.startChannels, State.startTrigger, State.startHistory,
      State.startSlots, State.startLink, State.listenAgain, State.withdraw, hm]
  all_goals exact ⟨rfl, rfl, rfl, rfl, rfl, rfl, .inr rfl⟩

theorem Updates.sameClock {round : Prop} {s t : State} (h : Updates round s t) : SameClock round s t := by
  induction h with
  | refl => exact ⟨rfl, rfl, rfl, rfl, rfl, rfl, .inr rfl⟩
  | tail _ hstep ih =>
    obtain ⟨a1, a2, a3, a4, a5, a6, a7⟩ := ih
    obtain ⟨b1, b2, b3, b4, b5, b6, b7⟩ := hstep.sameClock
    exact ⟨b1.trans a1, b2.trans a2, b3.trans a3, b4.trans a4, b5.trans a5, b6.trans a6,
      b7.elim .inl fun b => a7.imp_right b.trans⟩

/-- What every update keeps, updates one after the other keep. -/
theorem Updates.keep {round : Prop} {P : State → Prop} (hP : ∀ s t, Update round s t → P s → P t) {s t : State}
    (h : Updates round s t) (hs : P s) : P t := by
  induction h with
  | refl => exact hs
  | tail _ hstep ih => exact hP _ _ hstep ih

end Sys2Proof.Machine

/-!
PROOFS. Every shared operation and every effect as a row of elementary updates.
-/

namespace Sys2Proof.Machine

-- one declaration after the other: fewer threads at a time
set_option Elab.async false

/-! ### A channel stays sound -/

/-- R95, R104, R106, R107: what `Channel.sound` says, clause by clause. -/
theorem Channel.sound_iff (c : Channel) :
    c.sound = true ↔ (c.quality = .fault ↔ c.countCause = true) ∧
      (c.quality = .good → c.recA.latched = false ∧ c.recB.latched = false) ∧
      (c.timer ≠ none → c.quality = .unconfirmed) := by
  unfold Channel.sound
  cases c.quality <;> cases c.countCause <;> cases c.timer <;> simp

@[simp] theorem LineRecord.clear_cause (r : LineRecord) : r.clear.cause = r.cause := by
  unfold LineRecord.clear; split <;> rfl

/-- R106: a flag that is cleared stays only where its cause is present. -/
@[simp] theorem LineRecord.clear_latched (r : LineRecord) : r.clear.latched = (r.latched && r.cause) := by
  unfold LineRecord.clear; split <;> simp_all

theorem Channel.acknowledge_sound {c : Channel} (h : c.sound = true) (hq : c.quality ≠ .fault) :
    c.acknowledge.sound = true := by
  obtain ⟨hf, -, -⟩ := c.sound_iff.mp h
  have hc : c.recA.cause = false ∧ c.recB.cause = false := by
    simpa [Channel.countCause] using fun hc => hq (hf.mpr hc)
  simp [Channel.sound_iff, Channel.acknowledge, Channel.clearFlags, Channel.countCause, hc]

theorem Channel.preset_sound {c : Channel} (h : c.sound = true) (value : Count) : (c.preset value).sound = true := by
  have hsame : ({ c with count := value, epoch := c.epoch + 1 } : Channel).sound = true := h
  unfold Channel.preset
  cases hq : c.quality with
  | fault => simpa [hq] using hsame
  | good | unconfirmed => simpa [hq] using Channel.acknowledge_sound hsame (by simp [hq])

theorem Channel.faultAck_sound {c : Channel} (h : c.sound = true) : c.faultAck.sound = true := by
  unfold Channel.faultAck
  cases hq : c.quality with
  | unconfirmed => exact Channel.acknowledge_sound h (by simp [hq])
  | good =>
    obtain ⟨hf, hg, ht⟩ := c.sound_iff.mp h
    simp_all [Channel.sound_iff, Channel.clearFlags, Channel.countCause]
  | fault =>
    obtain ⟨hf, hg, ht⟩ := c.sound_iff.mp h
    simp_all [Channel.sound_iff, Channel.countCause]

theorem Channel.decode_sound {c : Channel} (h : c.sound = true) (m : ChannelMode) (a b : Bool) (quietTime : Nat)
    (now : Time) : (c.decode m a b quietTime now).sound = true := by
  have hbump : ∀ n, (c.bump n).sound = true := by
    intro n; unfold Channel.bump; split <;> exact h
  have hskip : (c.skip quietTime now).sound = true := by
    unfold Channel.skip
    cases hq : c.quality with
    | fault => exact h
    | good | unconfirmed =>
      obtain ⟨hf, -, -⟩ := c.sound_iff.mp h
      have hc : c.countCause = false := by simpa [hq] using hf
      simpa [hq, Channel.sound_iff, Channel.countCause] using hc
  have hmoved : ∀ d : Channel, d.sound = true → ({ d with lastA := a, lastB := b } : Channel).sound = true :=
    fun _ h => h
  unfold Channel.decode
  apply hmoved
  split
  · exact h
  · exact hbump 1
  · exact hbump (-1)
  · exact hskip

theorem Channel.causeAppears_sound {c : Channel} (h : c.sound = true) (n : Line) : (c.causeAppears n).sound = true := by
  cases n with
  | a | b => simp [Channel.causeAppears, Channel.setRecord, Channel.sound_iff, Channel.countCause]
  | r => exact h

theorem Channel.causeDisappears_sound {c : Channel} (h : c.sound = true) (n : Line) (quietTime : Nat) (now : Time) :
    (c.causeDisappears n quietTime now).sound = true := by
  rw [Channel.sound_iff] at h
  obtain ⟨hf, hg, ht⟩ := h
  cases n <;> cases hq : c.quality <;>
    simp_all [Channel.causeDisappears, Channel.setRecord, Channel.record, Channel.sound_iff, Channel.countCause]
  all_goals split <;> simp_all

theorem Channel.reset_sound : Channel.reset.sound = true := by decide

theorem Channel.startLine_sound {c : Channel} (h : c.sound = true) (monitors causes : Lines) (n : Line) :
    (c.startLine monitors causes n).sound = true := by
  unfold Channel.startLine; split
  · exact Channel.causeAppears_sound h n
  · exact h

theorem Channel.start_sound (m : ChannelMode) (monitors levels causes : Lines) :
    (Channel.start m monitors levels causes).sound = true := by
  cases m with
  | off => exact Channel.reset_sound
  | quad4 | pulseDir =>
    have hlevels : ({ Channel.reset with lastA := levels.a, lastB := levels.b } : Channel).sound = true := Channel.reset_sound
    exact startLine_sound (startLine_sound (startLine_sound hlevels _ _ _) _ _ _) _ _ _

/-! ### Who drives the controller -/

/-- Outside LEAVING the outcome of a LEAVE changes nothing. -/
theorem State.leaveEnded_of_ne {s : State} (h : s.ctrl.lifecycle ≠ .leaving) : s.leaveEnded = s := by
  unfold State.leaveEnded; split <;> simp_all

@[simp] theorem State.callLost_ctrl (s : State) (uid : Nat) : (s.callLost uid).ctrl = s.ctrl := by
  unfold State.callLost; split <;> [rfl; split <;> rfl]

theorem State.lose_ctrl {s : State} (h : s.ctrl.lifecycle ≠ .leaving) (f : QFrame) (o : Loss) :
    (s.lose f o).ctrl = s.ctrl := by
  unfold State.lose; split <;> (try split) <;> simp [State.leaveEnded_of_ne h]

theorem State.offer_ctrl {s : State} (h : s.ctrl.lifecycle ≠ .leaving) (o : Owner) (c : Content) :
    (s.offer o c).ctrl = s.ctrl := by
  have hlink : ∀ l f x, ((s.withLink l).lose f x).ctrl = s.ctrl := fun l f x => State.lose_ctrl (s := s.withLink l) h f x
  rcases s.offer_cases o c with ⟨_, _, _, e⟩ | ⟨_, _, e⟩ | ⟨_, _, _, _, _, _, e⟩ | ⟨_, _, _, e⟩ <;> rw [e]
  · exact hlink ..
  · rfl
  · exact hlink ..
  · exact State.lose_ctrl h ..

theorem State.takeDeadline_ctrl {s : State} (h : s.ctrl.lifecycle ≠ .leaving) (uid : Nat) :
    (s.takeDeadline uid).ctrl = s.ctrl := by
  unfold State.takeDeadline
  split
  · split
    · exact State.offer_ctrl (s := s.onEntry _ _) h _ _
    · rfl
  · rfl

theorem State.foldl_takeDeadline_ctrl {s : State} (h : s.ctrl.lifecycle ≠ .leaving) (l : List Nat) :
    (l.foldl State.takeDeadline s).ctrl = s.ctrl := by
  induction l generalizing s with
  | nil => rfl
  | cons u rest ih =>
    have hstep := State.takeDeadline_ctrl h u
    rw [List.foldl_cons, ih (by rw [hstep]; exact h), hstep]

@[simp] theorem State.foldl_freeEntry_ctrl (s : State) (l : List Nat) : (l.foldl State.freeEntry s).ctrl = s.ctrl := by
  induction l generalizing s with
  | nil => rfl
  | cons u rest ih => rw [List.foldl_cons, ih]; rfl

theorem State.correct_ctrl {s : State} (h : s.ctrl.lifecycle ≠ .leaving) (delta : Time) :
    (s.correct delta).ctrl = s.ctrl := by
  unfold State.correct
  split
  · rfl
  · have hfree : ∀ u : State, u.freeExpired.ctrl = u.ctrl := fun u => State.foldl_freeEntry_ctrl u _
    rw [State.walkPresets_ctrl]
    unfold State.captureCorrected State.takeDeadlines
    rw [State.foldl_takeDeadline_ctrl] <;> simp [State.passSchedules, State.missStrobes, hfree, h]

/-! ### The link unit's own updates -/

section
variable {round : Prop}

/-- A change of the link unit that the receiver does not follow. -/
theorem Updates.onLink (s : State) (l : LinkUnit) (hr : l.receiver = s.link.receiver) (hi : l.idleCount = s.link.idleCount)
    (hf : l.sending = s.link.sending) (hm : l.mark = s.link.mark) : Updates round s (s.withLink l) :=
  (Update.link s l fun h => h.of_same hr hi hf hm).updates

/-- A change of the queue and the ages given out. -/
theorem Updates.onQueue (s : State) (q : List QFrame) (n : Nat) :
    Updates round s (s.withLink { s.link with queue := q, nextAge := n }) := Updates.onLink s _ rfl rfl rfl rfl

/-- Updates followed by updates of what they come to. -/
theorem Updates.then {s t u : State} (h : Updates round s t) (h' : Updates round t u) : Updates round s u := h.trans h'

theorem State.onEntry_updates (s : State) (uid : Nat) (f : Entry → Entry)
    (h : ∀ e, (f e).uid = e.uid ∧ (f e).tag = e.tag ∧ (f e).origin = e.origin) : Updates round s (s.onEntry uid f) :=
  (Update.remark s _ fun e => by split <;> [exact h e; exact ⟨rfl, rfl, rfl⟩]).updates

theorem State.setFireLost_updates (s : State) (i : TermNo) : Updates round s (s.setFireLost i) := (Update.trig s _).updates

theorem State.onTerm_updates (s : State) (i : TermNo) (f : Term → Term) : Updates round s (s.onTerm i f) :=
  (Update.trig s _).updates

theorem State.callLost_updates (s : State) (uid : Nat) : Updates round s (s.callLost uid) := by
  unfold State.callLost
  split
  · exact .refl
  · split
    · exact (Update.freeEntry s uid).updates.then (State.setFireLost_updates _ _)
    · exact (Update.freeEntry s uid).updates

theorem State.abandon_updates (s : State) (uid : Nat) : Updates round s (s.onEntry uid Entry.abandon) :=
  s.onEntry_updates uid _ fun e => by unfold Entry.abandon; split <;> exact ⟨rfl, rfl, rfl⟩

theorem State.lose_updates (s : State) (f : QFrame) (o : Loss) : Updates round s (s.lose f o) := by
  unfold State.lose
  split
  · split <;> [exact .refl; exact s.callLost_updates _]
  · split <;> [exact .refl; exact s.abandon_updates _]
  · split <;> [exact .refl; exact (Update.freeEntry s _).updates]
  · exact .refl
  · exact .refl
  · exact .refl
  · exact (Update.undecline s _).updates
  · exact .refl
  · exact (Update.req s _).updates
  · split <;> [exact .refl; exact (Update.leaveEnded s).updates]

theorem State.foldl_lose_updates (s : State) (l : List QFrame) (o : Loss) :
    Updates round s (l.foldl (fun s f => s.lose f o) s) := by
  induction l generalizing s with
  | nil => exact .refl
  | cons f rest ih => exact (s.lose_updates f o).then (ih _)

theorem State.offer_updates (s : State) (o : Owner) (c : Content) : Updates round s (s.offer o c) := by
  rcases s.offer_cases o c with ⟨old, _, _, e⟩ | ⟨_, _, e⟩ | ⟨v, _, _, _, _, _, e⟩ | ⟨_, _, _, e⟩ <;> rw [e]
  · exact (Updates.onQueue s _ _).then (State.lose_updates _ _ _)
  · exact Updates.onQueue s _ _
  · exact ((Updates.onQueue s _ _).then (State.lose_updates _ _ _)).then (Updates.onQueue _ _ _)
  · exact State.lose_updates _ _ _

theorem State.withdrawDeclined_updates (s : State) (tag : Tag) : Updates round s (s.withdrawDeclined tag) := by
  unfold State.withdrawDeclined
  split
  · exact (Updates.onQueue s _ _).then (Update.undecline _ tag).updates
  · exact .refl

theorem State.flushLink_updates (s : State) : Updates round s s.flushLink := by
  have hsending : ∀ l : LinkUnit, l.flight = (s.link.flight.bind fun fl =>
      if fl.onWire then some { fl with finishing := true } else none) → l.sending = s.link.sending := by
    intro l hl
    unfold LinkUnit.sending
    rw [hl]
    cases s.link.flight with
    | none => rfl
    | some fl => cases h : fl.onWire <;> simp [h]
  have hflush := (Updates.onLink (round := round) s { s.link with
      queue := []
      flight := s.link.flight.bind fun fl => if fl.onWire then some { fl with finishing := true } else none }
    rfl rfl (hsending _ rfl) rfl).then (State.foldl_lose_updates _ s.link.queue .withdrawn)
  unfold State.flushLink
  dsimp only
  split
  · split
    · exact hflush
    · exact hflush.then (State.lose_updates _ _ _)
  · exact hflush

/-! ### Entries -/

theorem State.beginClosing_updates (s : State) (uid : Nat) : Updates round s (s.beginClosing uid) :=
  (Update.origin s uid (fun _ o => { o with state := .closing }) fun _ _ => ⟨rfl, rfl⟩).updates.then (State.offer_updates _ _ _)

theorem State.callSent_updates (s : State) (uid : Nat) : Updates round s (s.callSent uid) :=
  (Update.origin s uid _ fun e o => by split <;> exact ⟨rfl, rfl⟩).updates

theorem State.decline_updates (s : State) (tag : Tag) (reason : DeclineReason) (h : s.joined = true) :
    Updates round s (s.decline tag reason) :=
  (Update.decline s tag h).updates.then (State.offer_updates _ _ _)

/-! ### Room and new entries -/

theorem State.makeRoom_joined {s t : State} (h : s.makeRoom = some t) : t.joined = s.joined := by
  rcases s.makeRoom_cases with ⟨_, e⟩ | ⟨_, _, _, _, _, e⟩ | ⟨_, _, e⟩ <;> rw [e] at h <;> cases h <;> rfl

/-- R5: after room has been made there is some. -/
theorem State.makeRoom_room {s t : State} (hs : s.cap.table.length ≤ Config.tableSize) (h : s.makeRoom = some t) :
    t.cap.table.length < Config.tableSize := by
  rcases s.makeRoom_cases with ⟨hlt, e⟩ | ⟨x, hx, _, _, _, e⟩ | ⟨_, _, e⟩ <;> rw [e] at h <;> cases h
  · exact hlt
  · rw [State.freeEntry_table]
    refine lt_of_lt_of_le (List.length_filter_lt_length_iff_exists.mpr ⟨x, hx, by simp⟩) hs

theorem State.makeRoom_table_sublist {s t : State} (h : s.makeRoom = some t) : t.cap.table.Sublist s.cap.table := by
  rcases s.makeRoom_cases with ⟨_, e⟩ | ⟨_, _, _, _, _, e⟩ | ⟨_, _, e⟩ <;> rw [e] at h <;> cases h
  · exact .refl _
  · exact List.filter_sublist

theorem State.originCount_le_of_sublist {s t : State} (h : t.cap.table.Sublist s.cap.table) :
    t.originCount ≤ s.originCount := (h.filter _).length_le

theorem State.tagged?_none_of_sublist {s t : State} {tag : Tag} (h : t.cap.table.Sublist s.cap.table)
    (hs : s.tagged? tag = none) : t.tagged? tag = none := by
  unfold State.tagged? at *
  rw [List.find?_eq_none] at *
  exact fun e he => hs e (h.subset he)

end

end Sys2Proof.Machine

/-!
PROOFS. The acts every effect is a row of: an update that leaves the link unit's frames and the books on them alone, or
one of the shared operations on frames, taken whole. Between acts the books hold, as the invariants of the transmit queue,
the reply list, the declined list, the LEAVE and the origin parts say.
-/

namespace Sys2Proof.Machine

-- one declaration after the other: fewer threads at a time
set_option Elab.async false

/-! ### What the books are about -/

/-- The kinds of an own frame (R178). -/
def Content.kind : Content → Nat
  | .call _ => 0
  | .close _ => 1
  | .leave _ => 2
  | .report _ => 3
  | .beacon _ => 4
  | .reply _ _ => 5

/-- The class follows from the kind (R135). -/
theorem Content.cls_eq_of_kind {c d : Content} (h : c.kind = d.kind) : c.cls = d.cls := by
  cases c <;> cases d <;> simp [Content.kind] at h <;> rfl

/-- What the books note of a frame: its owner, its kind and its age. -/
def QFrame.sig (f : QFrame) : Owner × Nat × Nat := (f.owner, f.content.kind, f.age)

theorem QFrame.sig_eq {f g : QFrame} : f.sig = g.sig ↔ f.owner = g.owner ∧ f.content.kind = g.content.kind ∧ f.age = g.age := by
  simp [QFrame.sig]

/-- What the books note of an entry: its name and the state of its origin part (R6, R28). -/
def Entry.stance (e : Entry) : Nat × Option OriginState := (e.uid, e.origin.map Origin.state)

/-- R174: how many frames the station controller may have without an outcome. -/
def Lifecycle.leaveRoom : Lifecycle → Nat
  | .leaving | .muted => 1
  | .loading | .halted | .listening | .joined | .withdrawn => 0

/-- The frames and the books on them are the same. -/
structure SameBooks (s t : State) : Prop where
  queue : t.link.queue = s.link.queue
  flight : t.link.flight = s.link.flight
  nextAge : t.link.nextAge = s.link.nextAge
  replies : t.req.replies.map ReplyEntry.id = s.req.replies.map ReplyEntry.id
  nextId : t.req.nextId = s.req.nextId
  declined : t.cap.declined = s.cap.declined
  table : t.cap.table.map Entry.stance = s.cap.table.map Entry.stance
  nextUid : t.cap.nextUid = s.cap.nextUid
  leaveRoom : s.ctrl.lifecycle.leaveRoom ≤ t.ctrl.lifecycle.leaveRoom

/-- R142: the frames not in flight in order, and every age its own and given out (`State.queueOrdered`). -/
structure LinkUnit.Ordered (l : LinkUnit) : Prop where
  sorted : l.queue.Pairwise fun f g => f.before g = true
  ages : (l.frames.map QFrame.age).Nodup
  given : ∀ f ∈ l.frames, f.age < l.nextAge

theorem State.queueOrdered_iff (s : State) : s.queueOrdered = true ↔ s.link.Ordered := by
  simp only [State.queueOrdered, Bool.and_eq_true, decide_eq_true_eq, List.all_eq_true, and_assoc]
  exact ⟨fun ⟨a, b, c⟩ => ⟨a, b, c⟩, fun ⟨a, b, c⟩ => ⟨a, b, c⟩⟩

/-- The link unit holds the same frames, up to what the books do not note. -/
structure LinkUnit.Refit (l l' : LinkUnit) : Prop where
  frames : (l'.frames.map QFrame.sig).Perm (l.frames.map QFrame.sig)
  nextAge : l'.nextAge = l.nextAge
  ordered : l.Ordered → l'.Ordered
  finishing : ∀ fl', l'.flight = some fl' → fl'.finishing = true →
    ∃ fl, l.flight = some fl ∧ fl.finishing = true ∧ fl'.frame.owner = fl.frame.owner

/-! ### The acts -/

/-- The link unit with its frame in flight taken out. -/
def State.unflown (s : State) : State := s.withLink { s.link with flight := none }

/-- What an effect does between two moments at which the books hold. -/
inductive Act (round : Prop) : State → State → Prop
  | quiet (s t : State) (hu : Updates round s t) (hb : SameBooks s t) : Act round s t
  | refit (s : State) (l : LinkUnit) (hu : Updates round s (s.withLink l)) (hr : s.link.Refit l) :
      Act round s (s.withLink l)
  | free (s : State) (uid : Nat) : Act round s (s.freeEntry uid)
  | giveUp (s : State) (e : Entry) (he : e ∈ s.cap.table) (hw : s.callWaits e = true) : Act round s (s.giveUpCall e)
  | close (s : State) (uid : Nat) (e : Entry) (o : Origin) (he : s.entry? uid = some e) (ho : e.origin = some o)
      (hc : o.state = .collecting) : Act round s (s.beginClosing uid)
  | offer (s : State) (o : Owner) (c : Content) (hc : c.cls ≠ 0)
      (ho : o = .time ∨ ∃ e ∈ s.cap.table, o = .entry e.uid) : Act round s (s.offer o c)
  | decline (s : State) (tag : Tag) (reason : DeclineReason) (hj : s.joined = true) (hnew : tag ∉ s.cap.declined) :
      Act round s (s.decline tag reason)
  | reply (s : State) (i : Ident) (kind : Byte) (result : ReplyResult) : Act round s (s.offerReply i kind result)
  | addEntry (s t : State) (e : Entry) (hj : s.joined = true) (hroom : s.makeRoom = some t)
      (htag : t.tagged? e.tag = none) (huid : e.uid = t.cap.nextUid) (ho : e.origin = none) : Act round s (t.addEntry e)
  | originate (s t u : State) (e : Entry) (f : CallFrame) (hj : s.joined = true) (hroom : s.makeRoom = some t)
      (hplaces : s.originCount < Config.originPlaces) (htag : t.tagged? e.tag = none) (huid : e.uid = t.cap.nextUid)
      (ho : ∃ term, e.origin = some (Origin.fresh term)) (hu : Updates round (t.addEntry e) u)
      (hb : SameBooks (t.addEntry e) u) : Act round s (u.offer (.entry e.uid) (.call f))
  | withdrawDeclined (s : State) (tag : Tag) : Act round s (s.withdrawDeclined tag)
  | dropAll (s : State) (hj : s.joined = true) : Act round s (s.dropAll .muted)
  | leave (s : State) (m : Monitor) (hj : s.joined = true) :
      Act round s (State.leave { s with ctrl := { s.ctrl with monitor := m } })
  | muteLeaving (s : State) (hl : s.ctrl.lifecycle = .leaving) :
      Act round s (State.flushLink { s with ctrl := { s.ctrl with lifecycle := .muted } })
  | lost (s t : State) (fl : Flight) (f : QFrame) (o : Loss) (hu : Updates round s t) (hfl : s.link.flight = some fl)
      (hb : SameBooks s.unflown t) (hsig : f.sig = fl.frame.sig) (ho : o = .withdrawn → fl.finishing = true) :
      Act round s (t.lose f o)
  | callSent (s t : State) (fl : Flight) (uid : Nat) (hu : Updates round s t) (hfl : s.link.flight = some fl)
      (hb : SameBooks s.unflown t) (ho : fl.frame.owner = .entry uid) (hc : fl.frame.content.isCall = true) :
      Act round s (t.callSent uid)
  | landed (s t : State) (fl : Flight) (uid : Nat) (hu : Updates round s t) (hfl : s.link.flight = some fl)
      (hb : SameBooks s.unflown t) (ho : fl.frame.owner = .entry uid) (hc : fl.frame.content.cls ≠ 0) : Act round s t

/-- Acts one after the other. -/
abbrev Acts (round : Prop) : State → State → Prop := Relation.ReflTransGen (Act round)

section
variable {round : Prop}

theorem Act.acts {s t : State} (h : Act round s t) : Acts round s t := .single h

theorem Acts.then {s t u : State} (h : Acts round s t) (h' : Acts round t u) : Acts round s u := h.trans h'

/-- What every act keeps, acts one after the other keep. -/
theorem Acts.keep {P : State → Prop} (hP : ∀ s t, Act round s t → P s → P t) {s t : State} (h : Acts round s t)
    (hs : P s) : P t := by
  induction h with
  | refl => exact hs
  | tail _ hstep ih => exact hP _ _ hstep ih

/-- An update that leaves the books alone. -/
theorem Update.quiet {s t : State} (h : Update round s t) (hb : SameBooks s t := by constructor <;> rfl) :
    Acts round s t := .single (.quiet s t h.updates hb)

/-! ### Every act as a row of updates -/

theorem State.giveUpCall_updates (s : State) (e : Entry) : Updates round s (s.giveUpCall e) := by
  have hdrop := (Updates.onQueue (round := round) s
    (s.link.withdrawCall (.entry e.uid)).queue s.link.nextAge).then (Update.dropOrigin _ e.uid).updates
  unfold State.giveUpCall
  dsimp only
  split
  · exact hdrop.then (Update.freeEntry _ e.uid).updates
  · exact hdrop

theorem State.offerReply_updates (s : State) (i : Ident) (kind : Byte) (result : ReplyResult) :
    Updates round s (s.offerReply i kind result) := (Update.req s _).updates.then (State.offer_updates _ _ _)

theorem State.foldl_setFireLost (s : State) (l : List TermNo) :
    ∃ g : Trigger, l.foldl State.setFireLost s = { s with trig := g } := by
  induction l generalizing s with
  | nil => exact ⟨s.trig, rfl⟩
  | cons i rest ih =>
    obtain ⟨g, hg⟩ := ih (s.setFireLost i)
    exact ⟨g, by rw [List.foldl_cons, hg]; rfl⟩

/-- R27, R49, R69, R124, R149: what a change out of JOINED drops before the link unit's frames. -/
theorem State.dropAll_eq (s : State) (l : Lifecycle) :
    ∃ g : Trigger, s.dropAll l = State.flushLink { s with
      ctrl := { s.ctrl with lifecycle := l }
      cap := { s.cap with table := [], declined := [], schedules := [] }
      hist := { s.hist with presets := [], touched := 0 }
      trig := g } := by
  unfold State.dropAll State.flushCapture
  dsimp only
  obtain ⟨g, hg⟩ := State.foldl_setFireLost { s with
    ctrl := { s.ctrl with lifecycle := l }
    cap := { s.cap with table := [], declined := [], schedules := [] } }
    (s.cap.table.filterMap (State.lostAtFlush { s with ctrl := { s.ctrl with lifecycle := l } }))
  rw [hg]
  exact ⟨_, rfl⟩

theorem State.dropAll_updates (s : State) (l : Lifecycle) (m : Monitor) (hj : s.joined = true)
    (hl : l = .leaving ∨ l = .muted) :
    Updates round s (State.dropAll { s with ctrl := { s.ctrl with monitor := m } } l) := by
  obtain ⟨g, hg⟩ := State.dropAll_eq { s with ctrl := { s.ctrl with monitor := m } } l
  rw [hg]
  exact ((Update.leaveJoined s l m hj hl).updates.then (Update.trig _ g).updates).then (State.flushLink_updates _)

theorem Act.updates {s t : State} (h : Act round s t) : Updates round s t := by
  cases h
  case quiet hu hb => exact hu
  case refit l hu hr => exact hu
  case free uid => exact (Update.freeEntry s uid).updates
  case giveUp e he hw => exact s.giveUpCall_updates e
  case close uid e o he ho hc => exact s.beginClosing_updates uid
  case offer o c hc ho => exact s.offer_updates o c
  case decline tag reason hj hnew => exact s.decline_updates tag reason hj
  case reply i kind result => exact s.offerReply_updates i kind result
  case addEntry t e hj hroom htag huid ho =>
    exact (Update.addEntry s t e hj hroom (fun h => absurd ho h) htag huid (by simp [ho])).updates
  case originate t u e f hj hroom hplaces htag huid ho hu hb =>
    obtain ⟨term, ho⟩ := ho
    refine ((Update.addEntry s t e hj hroom (fun _ => hplaces) htag huid ?_).updates.then hu).then (State.offer_updates _ _ _)
    simp [ho, Origin.fresh]
  case withdrawDeclined tag => exact s.withdrawDeclined_updates tag
  case dropAll hj => exact s.dropAll_updates .muted s.ctrl.monitor hj (.inr rfl)
  case leave m hj => exact (s.dropAll_updates .leaving m hj (.inl rfl)).then (State.offer_updates _ _ _)
  case muteLeaving hl =>
    exact (Update.mute s s.ctrl.listenTimer (.inl ⟨hl, rfl⟩)).updates.then (State.flushLink_updates _)
  case lost t fl f o hu hfl hb hsig ho => exact hu.then (State.lose_updates _ _ _)
  case callSent t fl uid hu hfl hb ho hc => exact hu.then (State.callSent_updates _ _)
  case landed => assumption

theorem Acts.updates {s t : State} (h : Acts round s t) : Updates round s t := by
  induction h with
  | refl => exact .refl
  | tail _ hstep ih => exact ih.then hstep.updates

/-! ### What leaves the books alone -/

theorem SameBooks.of_lifecycle (s : State) (c : Controller) (h : s.ctrl.lifecycle.leaveRoom ≤ c.lifecycle.leaveRoom) :
    SameBooks s { s with ctrl := c } := ⟨rfl, rfl, rfl, rfl, rfl, rfl, rfl, rfl, h⟩

theorem SameBooks.of_map (s : State) (g : Entry → Entry) (h : ∀ e, (g e).stance = e.stance) :
    SameBooks s { s with cap := { s.cap with table := s.cap.table.map g } } :=
  ⟨rfl, rfl, rfl, rfl, rfl, rfl, by simp [Function.comp_def, h], rfl, le_refl _⟩

theorem SameBooks.of_onEntry (s : State) (uid : Nat) (f : Entry → Entry) (h : ∀ e, (f e).stance = e.stance) :
    SameBooks s (s.onEntry uid f) := SameBooks.of_map s _ fun e => by split <;> [exact h e; rfl]

/-- An entry's marks other than its name, tag and origin part. -/
theorem State.onEntry_acts (s : State) (uid : Nat) (f : Entry → Entry)
    (h : ∀ e, (f e).uid = e.uid ∧ (f e).tag = e.tag ∧ (f e).origin = e.origin) : Acts round s (s.onEntry uid f) :=
  .single (.quiet s _ (s.onEntry_updates uid f h) (.of_onEntry s uid f fun e => by simp [Entry.stance, h e]))

/-- What an origin part notes beside its state and its answers. -/
theorem State.onOrigin_acts (s : State) (uid : Nat) (f : Entry → Origin → Origin)
    (h : ∀ e o, (f e o).state = o.state ∧ (f e o).responders = o.responders ∧ (f e o).decliners = o.decliners) :
    Acts round s (s.onEntry uid fun e => e.onOrigin (f e)) :=
  .single (.quiet s _ (Update.origin s uid f fun e o => (h e o).2).updates (.of_onEntry s uid _ fun e => by
    simp [Entry.stance, Entry.onOrigin, Function.comp_def, h]))

theorem State.setFireLost_acts (s : State) (i : TermNo) : Acts round s (s.setFireLost i) := (Update.trig s _).quiet

theorem State.onTerm_acts (s : State) (i : TermNo) (f : Term → Term) : Acts round s (s.onTerm i f) :=
  (Update.trig s _).quiet

theorem State.makeRoom_acts {s t : State} (h : s.makeRoom = some t) : Acts round s t := by
  rcases s.makeRoom_cases with ⟨_, e⟩ | ⟨_, _, _, _, _, e⟩ | ⟨_, _, e⟩ <;> rw [e] at h <;> cases h
  · exact .refl
  · exact (Act.free s _).acts

/-! ### The link unit holds the same frames -/

theorem LinkUnit.Ordered.of_perm {l l' : LinkUnit} (h : l.Ordered) (hs : l'.queue.Pairwise fun f g => f.before g = true)
    (hp : (l'.frames.map QFrame.sig).Perm (l.frames.map QFrame.sig)) (hn : l'.nextAge = l.nextAge) : l'.Ordered := by
  have hages : (l'.frames.map QFrame.age).Perm (l.frames.map QFrame.age) := by
    simpa [QFrame.sig, Function.comp_def] using hp.map fun x => x.2.2
  refine ⟨hs, hages.nodup_iff.mpr h.ages, fun f hf => ?_⟩
  obtain ⟨g, hg, he⟩ := List.mem_map.mp (hages.subset (List.mem_map_of_mem hf))
  rw [hn, ← he]
  exact h.given g hg

theorem LinkUnit.Refit.of_sorted {l l' : LinkUnit} (hp : (l'.frames.map QFrame.sig).Perm (l.frames.map QFrame.sig))
    (hn : l'.nextAge = l.nextAge) (hq : l'.queue.Sublist l.queue)
    (hf : ∀ fl', l'.flight = some fl' → fl'.finishing = true →
      ∃ fl, l.flight = some fl ∧ fl.finishing = true ∧ fl'.frame.owner = fl.frame.owner) : l.Refit l' :=
  ⟨hp, hn, fun h => h.of_perm (h.sorted.sublist hq) hp hn, hf⟩

/-- R134: a frame that starts was held before. -/
theorem LinkUnit.launch_refit {l : LinkUnit} {f : QFrame} (h : l.candidate = some f) (now : Time) :
    l.Refit (l.launch f now) := by
  unfold LinkUnit.candidate at h
  cases hf : l.flight with
  | some fl =>
    simp only [hf] at h
    split at h <;> cases h
    refine .of_sorted ?_ rfl (by simp [LinkUnit.launch, hf]) (by simp [LinkUnit.launch])
    simp [LinkUnit.frames, LinkUnit.launch, hf, QFrame.sig]
  | none =>
    simp only [hf] at h
    obtain ⟨rest, hrest⟩ : ∃ rest, l.queue = f :: rest := List.head?_eq_some_iff.mp h
    refine .of_sorted ?_ rfl (by simp [LinkUnit.launch, hf, hrest]) (by simp [LinkUnit.launch])
    simp [LinkUnit.frames, LinkUnit.launch, hf, hrest, QFrame.sig]

theorem LinkUnit.fixContent_refit {l : LinkUnit} {c : Content} {bytes : List Byte}
    (h : ∀ fl, l.flight = some fl → c.kind = fl.frame.content.kind) : l.Refit (l.fixContent c bytes) := by
  cases hf : l.flight with
  | none =>
    refine .of_sorted ?_ rfl (.refl _) (by simp [LinkUnit.fixContent, hf])
    simp [LinkUnit.frames, LinkUnit.fixContent, hf]
  | some fl =>
    refine .of_sorted ?_ rfl (.refl _) (by simp [LinkUnit.fixContent, hf])
    simp [LinkUnit.frames, LinkUnit.fixContent, hf, QFrame.sig, h fl hf]

/-- R136: a frame that has lost arbitration goes back to its place. -/
theorem LinkUnit.requeue_refit {l : LinkUnit} {fl : Flight} (h : l.flight = some fl) (idle : Option Nat) :
    l.Refit { l with flight := none, idleCount := idle, queue := insertFrame fl.frame l.queue } := by
  have hp := (insertFrame_perm fl.frame l.queue).map QFrame.sig
  have hp' : (({ l with flight := none, idleCount := idle, queue := insertFrame fl.frame l.queue } : LinkUnit).frames.map
      QFrame.sig).Perm (l.frames.map QFrame.sig) := by simpa [LinkUnit.frames, h] using hp
  refine ⟨hp', rfl, fun ho => ho.of_perm (insertFrame_pairwise ho.sorted fun g hg he => ?_) hp' rfl, by simp⟩
  have hnodup := ho.ages
  simp only [LinkUnit.frames, h, Option.map_some, Option.toList_some, List.singleton_append, List.map_cons,
    List.nodup_cons] at hnodup
  exact hnodup.1 (he ▸ List.mem_map_of_mem hg)

/-- R137: a frame that awaits its retry stays in flight. -/
theorem LinkUnit.retry_refit {l : LinkUnit} {fl : Flight} (h : l.flight = some fl) (l' : LinkUnit) {f : QFrame}
    {bytes : List Byte} {onWire : Bool} (hf : l'.flight = some ⟨f, bytes, onWire, false⟩) (hq : l'.queue = l.queue)
    (hn : l'.nextAge = l.nextAge) (howner : f.owner = fl.frame.owner)
    (hsig : (f.content.kind, f.age) = (fl.frame.content.kind, fl.frame.age)) : l.Refit l' := by
  refine .of_sorted ?_ hn (by simp [hq]) (by simp [hf])
  simp only [Prod.mk.injEq] at hsig
  simp [LinkUnit.frames, h, hf, hq, QFrame.sig, howner, hsig]

theorem LinkUnit.onWire?_flight {l : LinkUnit} {fl : Flight} (h : l.onWire? = some fl) : l.flight = some fl := by
  unfold LinkUnit.onWire? at h
  split at h
  · split at h <;> cases h
    assumption
  · cases h

theorem State.starting_candidate {s : State} {f : QFrame} (h : s.starting = some f) : s.link.candidate = some f := by
  unfold State.starting at h
  split at h
  · split at h <;> cases h
    assumption
  · cases h

@[simp] theorem State.compose_link (s : State) (owner : Owner) (c : Content) (started : Bool) :
    (s.compose owner c started).1.link = s.link := by
  unfold State.compose
  split
  · split <;> rfl
  · split <;> rfl
  · rfl
  · split
    · split <;> rfl
    · rfl
  · rfl

@[simp] theorem State.compose_kind (s : State) (owner : Owner) (c : Content) (started : Bool) :
    (s.compose owner c started).2.kind = c.kind := by
  unfold State.compose
  split
  · split <;> rfl
  · split <;> rfl
  · rfl
  · split
    · split <;> rfl
    · rfl
  · rfl

/-- R170: an accepted image starts the blocks and touches no frame. -/
theorem State.startListening_books (s : State) (image : Image) (hl : s.ctrl.lifecycle = .loading) :
    SameBooks s (s.startListening image) := by
  unfold State.startListening
  dsimp only
  split <;> exact ⟨rfl, rfl, rfl, rfl, rfl, rfl, rfl, rfl, by simp [hl, Lifecycle.leaveRoom]⟩

/-! ### The shared operations on entries as acts -/

theorem State.entry?_eq_some {s : State} {uid : Nat} {e : Entry} (h : s.entry? uid = some e) :
    e ∈ s.cap.table ∧ e.uid = uid :=
  ⟨List.mem_of_find?_eq_some h, by simpa using List.find?_some h⟩

theorem State.tagged?_eq_some {s : State} {tag : Tag} {e : Entry} (h : s.tagged? tag = some e) :
    e ∈ s.cap.table ∧ e.tag = tag :=
  ⟨List.mem_of_find?_eq_some h, by simpa using List.find?_some h⟩

theorem State.resolveEntry_acts (s : State) (uid : Nat) : Acts round s (s.resolveEntry uid) := by
  unfold State.resolveEntry
  split
  · exact .refl
  · rename_i e he
    split
    · refine (s.onEntry_acts uid (fun e => { e with member := .resolved }) fun e => ⟨rfl, rfl, rfl⟩).then
        (Act.offer _ _ _ (by simp [Content.cls]) (.inr ?_)).acts
      obtain ⟨hmem, huid⟩ := State.entry?_eq_some he
      exact ⟨{ e with member := .resolved }, List.mem_map.mpr ⟨e, hmem, by simp [huid]⟩, by simp [huid]⟩
    · exact .refl

theorem State.resolveAtOnce_acts (s : State) (e : Entry) : Acts round s (s.resolveAtOnce e) := by
  unfold State.resolveAtOnce
  split
  · split <;> [exact s.resolveEntry_acts _; exact .refl]
  · exact .refl

theorem State.foldl_resolveEntry_acts (s : State) (l : List Nat) : Acts round s (l.foldl State.resolveEntry s) := by
  induction l generalizing s with
  | nil => exact .refl
  | cons u rest ih => exact (s.resolveEntry_acts u).then (ih _)

theorem State.testCover_acts (s : State) (uid : Nat) : Acts round s (s.testCover uid) := by
  unfold State.testCover
  split
  · rename_i o he
    split
    · rename_i hc
      exact (Act.close s uid _ o he rfl hc.1).acts
    · exact .refl
  · exact .refl

theorem State.countAnswer_acts (s : State) (uid : Nat) (i : Ident) (declined : Bool) :
    Acts round s (s.countAnswer uid i declined) := by
  unfold State.countAnswer
  split
  · rename_i o he
    split
    · rename_i hc
      simp only [Bool.and_eq_true, Bool.not_eq_true'] at hc
      refine .trans ((Update.answer s uid _ o i declined he rfl hc.2).quiet (.of_onEntry s uid _ fun e => ?_))
        (State.testCover_acts _ _)
      cases declined <;> simp [Entry.stance, Entry.onOrigin, Function.comp_def]
    · exact .refl
  · exact .refl

theorem State.reportSent_acts (s : State) (uid : Nat) : Acts round s (s.reportSent uid) :=
  (s.onEntry_acts uid _ fun e => by unfold Entry.reportSent; split <;> exact ⟨rfl, rfl, rfl⟩).then
    (State.countAnswer_acts _ _ _ _)

end

end Sys2Proof.Machine

/-!
PROOFS. Every effect as a row of acts (`effect_acts`), and so of elementary updates (`effect_cases`).
-/

namespace Sys2Proof.Machine

-- one declaration after the other: fewer threads at a time
set_option Elab.async false

section
variable {round : Prop}

/-! ### The walk and a change of the correction -/

/-- R64: the walk changes channels, the list and the touched set, and keeps each channel sound. -/
theorem State.walk_acts (s : State) (kept l : List Preset) (h : (kept ++ l).Sublist s.hist.presets) :
    Acts round s (s.walk kept l) := by
  induction l generalizing s kept with
  | nil => exact (Update.presets s kept s.hist.touched (by simpa using h)).quiet
  | cons p rest ih =>
    unfold State.walk
    split
    · refine .trans ?_ (ih (s.applyPreset p) kept (.trans (.append_left (List.sublist_cons_self ..) _) h))
      refine (Update.chans s (s.presetChannels p.chans p.value).chans fun i hi => ?_).quiet.then
        (Update.presets { s with chans := (s.presetChannels p.chans p.value).chans } s.hist.presets
          (s.hist.touched ||| p.chans) (.refl _)).quiet
      simp only [State.presetChannels, Four.get_build]
      split
      · exact Channel.preset_sound hi _
      · exact hi
    · exact ih s (kept ++ [p]) (by simpa using h)

theorem State.walkPresets_acts (s : State) : Acts round s s.walkPresets := s.walk_acts _ _ (.refl _)

theorem State.foldl_freeEntry_acts (s : State) (l : List Nat) : Acts round s (l.foldl State.freeEntry s) := by
  induction l generalizing s with
  | nil => exact .refl
  | cons u rest ih => exact (Act.free s u).acts.then (ih _)

theorem State.takeDeadline_acts (s : State) (uid : Nat) : Acts round s (s.takeDeadline uid) := by
  unfold State.takeDeadline
  split
  · rename_i e he
    split
    · rename_i hdue
      unfold State.deadlineDue at hdue
      split at hdue
      · rename_i ho
        exact (Act.close s uid e _ he ho rfl).acts
      · cases hdue
    · exact .refl
  · exact .refl

theorem State.foldl_takeDeadline_acts (s : State) (l : List Nat) : Acts round s (l.foldl State.takeDeadline s) := by
  induction l generalizing s with
  | nil => exact .refl
  | cons u rest ih => exact (s.takeDeadline_acts u).then (ih _)

theorem State.captureCorrected_acts (s : State) : Acts round s s.captureCorrected := by
  have hfree : Acts round s s.freeExpired := s.foldl_freeEntry_acts _
  have hmiss : ∀ u : State, Acts round u u.missStrobes := fun u =>
    (Update.remark u _ fun e => by split <;> exact ⟨rfl, rfl, rfl⟩).quiet (.of_map u _ fun e => by split <;> rfl)
  have hpass : ∀ u : State, Acts round u u.passSchedules := fun u =>
    (Update.schedules u _ (.inr fun h => by simp [h])).quiet
  exact ((hfree.then (hmiss _)).then (hpass _)).then (State.foldl_takeDeadline_acts _ _)

theorem State.correct_acts (s : State) (delta : Time) : Acts True s (s.correct delta) := by
  unfold State.correct
  split
  · exact .refl
  · refine ((Update.time s _ _ _ _ ?_ (.inl trivial)).quiet.then (State.captureCorrected_acts _)).then
      (State.walkPresets_acts _)
    simp [Function.comp_def]

theorem Peer.aged_ident {p q : Peer} {now : Time} (h : p.aged now = some q) : q.ident = p.ident := by
  unfold Peer.aged at h
  split at h
  · cases h
  · split at h <;> cases h <;> rfl

theorem agedIdents_sublist (l : List Peer) (now : Time) :
    ((l.filterMap fun p => p.aged now).map Peer.ident).Sublist (l.map Peer.ident) := by
  induction l with
  | nil => exact .refl _
  | cons p rest ih =>
    rw [List.filterMap_cons]
    split
    · exact .cons _ ih
    · rename_i q hq
      rw [List.map_cons, List.map_cons, Peer.aged_ident hq]
      exact .cons_cons _ ih

@[simp] theorem Peer.judged_ident (p : Peer) (offset m : Int) : (p.judged offset m).ident = p.ident := by
  unfold Peer.judged
  dsimp only
  split
  · rfl
  · split
    · split <;> rfl
    · split <;> [split <;> rfl; rfl]
    · rfl
    · rfl

theorem State.round_acts (s : State) : Acts True s s.round := by
  refine ((Update.time s _ _ _ _ (agedIdents_sublist _ _) (.inl trivial)).quiet.then
    (State.correct_acts _ _)).then (Update.time _ _ _ _ _ ?_ (.inl trivial)).quiet
  simp only [List.map_map, Function.comp_def, Peer.judged_ident]
  exact .refl _

theorem State.offerBeacon_acts (s : State) : Acts round s s.offerBeacon := by
  unfold State.offerBeacon
  split <;> [exact (Act.offer s .time (.beacon none) (by simp [Content.cls]) (.inl rfl)).acts; exact .refl]

theorem State.beaconSlot_acts (s : State) : Acts True s s.beaconSlot := by
  unfold State.beaconSlot
  split
  · exact .refl
  · exact (s.round_acts.then (State.offerBeacon_acts _)).then
      (Update.time _ _ _ _ _ (.refl _) (.inr rfl)).quiet

/-! ### The join -/

theorem State.passSlot_acts (s : State) : Acts round s s.passSlot := by
  unfold State.passSlot
  split
  · split <;> [exact (Update.time s _ _ _ _ (.refl _) (.inr rfl)).quiet; exact .refl]
  · exact .refl

theorem State.entryStep_acts (s : State) : Acts True s s.entryStep := by
  have hstate : ∀ (u : State) (x : TimeState), Acts True u { u with time := { u.time with state := x } } :=
    fun u x => (Update.time u _ _ _ _ (.refl _) (.inr rfl)).quiet
  unfold State.entryStep
  split
  · dsimp only
    split
    · exact (s.correct_acts _).then (hstate _ _)
    · exact ((s.correct_acts _).then (State.passSlot_acts _)).then (hstate _ _)
  · exact hstate _ _

@[simp] theorem State.passSlot_ctrl (s : State) : s.passSlot.ctrl = s.ctrl := by
  unfold State.passSlot
  split
  · split <;> rfl
  · rfl

theorem State.entryStep_ctrl {s : State} (h : s.ctrl.lifecycle ≠ .leaving) : s.entryStep.ctrl = s.ctrl := by
  unfold State.entryStep
  split
  · dsimp only
    split <;> simp [State.correct_ctrl h]
  · rfl

theorem State.listenExpiry_acts (s : State) : Acts True s s.listenExpiry := by
  unfold State.listenExpiry
  split
  case isFalse => exact .refl
  case isTrue hdue =>
    have hs : s.released = true ∧ s.ctrl.lifecycle = .listening := by
      unfold State.listenDue at hdue
      split at hdue
      · simp only [Bool.and_eq_true, decide_eq_true_eq] at hdue; exact hdue.1
      · cases hdue
    set j : State := { s with ctrl := { s.ctrl with lifecycle := .joined, listenTimer := none } } with hj
    have hctrl : j.entryStep.ctrl = j.ctrl := State.entryStep_ctrl (by simp [hj])
    have hjoined : j.entryStep.joined = true := by
      rw [State.joined, State.released, hctrl]
      simpa [hj, State.released] using hs.1
    have hroom : SameBooks s j := .of_lifecycle s _ (by simp [hs.2, Lifecycle.leaveRoom])
    exact ((((Update.join s hs.1 hs.2).quiet hroom).then j.entryStep_acts).then
      (Update.schedules _ _ (.inl hjoined)).quiet).then (Update.trig _ _).quiet

/-! ### Out of JOINED -/

theorem State.supplyWarning_acts (s : State) : Acts round s s.supplyWarning := by
  unfold State.supplyWarning
  split
  case isTrue => exact .refl
  case isFalse hr =>
    have hreleased : s.released = true := by simp at hr; exact hr.1
    dsimp only
    split
    case h_1 hl => exact (Update.withdraw s .warning hl).quiet (.of_lifecycle s _ (by simp [hl, Lifecycle.leaveRoom]))
    case h_2 hl =>
      exact (Act.leave s .warning (by simp [State.joined, hreleased, hl])).acts
    all_goals
      rename_i hl
      exact (Update.monitor s .warning (.inr ⟨by simp [hl], by simp [hl]⟩)).quiet

theorem State.supplyClear_acts (s : State) : Acts round s s.supplyClear := by
  unfold State.supplyClear
  split
  · exact .refl
  · dsimp only
    have hnormal := (Update.monitor (round := round) s .normal (.inl rfl)).quiet
    split
    case h_1 hl =>
      exact hnormal.then ((Update.listenAgain { s with ctrl := { s.ctrl with monitor := .normal } } hl rfl).quiet
        (.of_lifecycle _ _ (by simp [hl, Lifecycle.leaveRoom])))
    all_goals exact hnormal

theorem State.conflict_acts (s : State) (hr : s.released = true) : Acts round s s.conflict := by
  unfold State.conflict
  split
  case h_1 hl => exact (Act.dropAll s (by simp [State.joined, hr, hl])).acts
  case h_2 hl => exact (Act.muteLeaving s hl).acts
  case h_3 hl => exact (Update.mute s none (.inr ⟨.inl hl, rfl⟩)).quiet (.of_lifecycle s _ (by simp [hl, Lifecycle.leaveRoom]))
  case h_4 hl => exact (Update.mute s none (.inr ⟨.inr hl, rfl⟩)).quiet (.of_lifecycle s _ (by simp [hl, Lifecycle.leaveRoom]))
  all_goals exact .refl

/-! ### Arrivals -/

/-- R178: no well-formed frame bears the identity 0. -/
theorem Frame.sender_ne_zero {bytes : List Byte} {f : Frame} (h : Frame.decode bytes = some f) : f.sender ≠ 0 := by
  unfold Frame.decode at h
  split at h
  · dsimp only at h
    split_ifs at h with _ _ _ _ _ hsender
    rw [Option.map_eq_some_iff] at h
    obtain ⟨_, _, rfl⟩ := h
    exact hsender
  · cases h

theorem State.released_of_running {s : State} (h : s.running = true) : s.released = true := by
  simp only [State.running, Bool.and_eq_true] at h
  exact h.1

theorem State.endReception_acts (s : State) (h : s.link.sending = false) : Acts round s s.endReception :=
  (Update.link s _ fun _ => ⟨by simp, by simpa [LinkUnit.sending] using h, fun _ => rfl⟩).quiet

theorem State.arrival_acts (s : State) (bytes : List Byte) (mine : Body → Bool) (deliver : Time → Frame → State → State)
    (hdeliver : ∀ edge f u, f.sender ≠ 0 → f.sender ≠ u.ctrl.identity → u.running = true →
      Acts round u (deliver edge f u)) : Acts round s (s.arrival bytes mine deliver) := by
  rcases s.arrival_cases bytes mine deliver with ⟨_, e⟩ | ⟨edge, hends, hcases⟩
  · rw [e]
  · obtain ⟨-, hrunning, hsending⟩ := State.receiving_eq_some.mp (State.frameEnds_eq_some.mp hends).1
    have hend := s.endReception_acts (round := round) hsending
    rcases hcases with ⟨_, e⟩ | ⟨f, hf, ⟨_, e⟩ | ⟨_, _, e⟩ | ⟨_, hown, e⟩⟩
    · exact e ▸ hend
    · rw [e]
    · exact e ▸ hend.then (State.conflict_acts _ (State.released_of_running hrunning))
    · exact e ▸ hend.then (hdeliver edge f _ (Frame.sender_ne_zero hf) hown hrunning)

theorem State.callArrival_acts (s : State) (f : CallFrame) : Acts round s (s.callArrival f) := by
  unfold State.callArrival
  split
  case isTrue => exact .refl
  case isFalse hg =>
    have hj : s.joined = true := by simp at hg; exact hg.1.1
    split
    case h_1 e he =>
      split
      · rename_i hw
        exact (Act.giveUp s e (State.tagged?_eq_some he).1 hw).acts
      · exact .refl
    case h_2 htag =>
      split
      · exact .refl
      · rename_i hnew
        have hnew : f.tag ∉ s.cap.declined := by simpa using hnew
        split
        · exact (Act.decline s _ _ hj hnew).acts
        · split
          · exact (Act.decline s _ _ hj hnew).acts
          · rename_i t hroom
            exact (Act.addEntry s t _ hj hroom (State.tagged?_none_of_sublist (State.makeRoom_table_sublist hroom) htag)
              rfl rfl).acts.then (State.resolveAtOnce_acts _ _)

theorem State.reportArrival_acts (s : State) (i : Ident) (f : ReportFrame) : Acts round s (s.reportArrival i f) := by
  unfold State.reportArrival
  split
  · exact .refl
  · split <;> [exact s.countAnswer_acts _ _ _; exact .refl]

theorem State.closeArrival_acts (s : State) (i : Ident) (f : CloseFrame) : Acts round s (s.closeArrival i f) := by
  unfold State.closeArrival
  split
  · exact .refl
  · split
    · split <;> [exact (Act.withdrawDeclined s _).acts; exact .refl]
    · split
      · exact (Act.free s _).acts
      · split <;> split <;> first | exact (Act.free s _).acts | exact .refl

theorem State.presetArrival_acts (s : State) (i : Ident) (f : PresetFrame) : Acts round s (s.presetArrival i f) := by
  unfold State.presetArrival
  split
  case isTrue => exact .refl
  case isFalse hg =>
    have hj : s.joined = true := by simp at hg; exact hg.1
    split
    · exact .refl
    · split
      · exact (Update.req s _).quiet
      · rename_i hnone
        refine (Update.addPreset s _ hj ?_).quiet
        unfold State.presetRefusal at hnone
        split_ifs at hnone with _ _ hfull
        omega

theorem State.carryOut_acts (s : State) (r : Request) : Acts round s (s.carryOut r).1 := by
  cases r with
  | status => exact .refl
  | arm i =>
    simp only [State.carryOut, State.armTerm]
    split <;> [exact s.onTerm_acts _ _; exact .refl]
  | disarm i =>
    simp only [State.carryOut, State.disarmTerm]
    split <;> [exact s.onTerm_acts _ _; exact .refl]
  | faultAck chans =>
    refine (Update.chans s _ fun i hi => ?_).quiet
    simp only [Four.get_build]
    split
    · exact Channel.faultAck_sound hi
    · exact hi
  | unknown => exact .refl

theorem State.requestArrival_acts (s : State) (i : Ident) (f : RequestFrame) :
    Acts round s (s.requestArrival i f) := by
  unfold State.requestArrival
  split
  · exact (s.carryOut_acts f.read).then (Act.reply _ _ _ _).acts
  · exact .refl

theorem deliverBeacon_acts (edge : Time) (f : Frame) (s : State) (hzero : f.sender ≠ 0) (hown : f.sender ≠ s.ctrl.identity)
    (hr : s.running = true) : Acts round s (deliverBeacon edge f s) := by
  unfold deliverBeacon
  split
  · exact (Update.hear s _ hzero hown (State.released_of_running hr)).quiet
  · exact .refl

theorem deliverLeave_acts (edge : Time) (f : Frame) (s : State) : Acts round s (deliverLeave edge f s) :=
  (Update.time s _ _ _ _ (List.filter_sublist.map _) (.inr rfl)).quiet

theorem deliverRequest_acts (edge : Time) (f : Frame) (s : State) : Acts round s (deliverRequest edge f s) := by
  unfold deliverRequest
  split <;> [exact s.requestArrival_acts _ _; exact .refl]

theorem deliverCall_acts (edge : Time) (f : Frame) (s : State) : Acts round s (deliverCall edge f s) := by
  unfold deliverCall
  split <;> [exact s.callArrival_acts _; exact .refl]

theorem deliverReport_acts (edge : Time) (f : Frame) (s : State) : Acts round s (deliverReport edge f s) := by
  unfold deliverReport
  split <;> [exact s.reportArrival_acts _ _; exact .refl]

theorem deliverClose_acts (edge : Time) (f : Frame) (s : State) : Acts round s (deliverClose edge f s) := by
  unfold deliverClose
  split <;> [exact s.closeArrival_acts _ _; exact .refl]

theorem deliverPreset_acts (edge : Time) (f : Frame) (s : State) : Acts round s (deliverPreset edge f s) := by
  unfold deliverPreset
  split <;> [exact s.presetArrival_acts _ _; exact .refl]

/-! ### Fires, cadence and the entries' own events -/

theorem State.originateFire_acts (s t : State) (i : TermNo) (stamp : Time) (hj : s.joined = true)
    (hroom : s.makeRoom = some t) (ho : s.originCount < Config.originPlaces)
    (htag : t.tagged? (.station t.ctrl.identity t.cap.sequence) = none) : Acts round s (t.originateFire i stamp) :=
  ((Act.originate s t _ _ _ hj hroom ho htag rfl ⟨_, rfl⟩ (State.onTerm_updates _ _ _) (by constructor <;> rfl)).acts.then
    (Update.nextSequence _).quiet).then (State.resolveAtOnce_acts _ _)

theorem State.takeFire_acts (s : State) (stamp : Time) (i : TermNo) : Acts round s (s.takeFire stamp i) := by
  unfold State.takeFire
  split
  case isTrue => exact .refl
  case isFalse hj =>
    split
    case isTrue => exact s.setFireLost_acts i
    case isFalse ho =>
      split
      case h_1 => exact s.setFireLost_acts i
      case h_2 t hroom =>
        split
        · exact ((State.makeRoom_acts hroom).then (Update.nextSequence t).quiet).then (State.setFireLost_acts _ i)
        · rename_i htaken
          refine s.originateFire_acts t i stamp (by simpa using hj) hroom (by omega) ?_
          simp only [State.tagTaken, Bool.or_eq_true, not_or, Bool.not_eq_true, Option.isSome_eq_false_iff,
            Option.isNone_iff_eq_none] at htaken
          exact htaken.1

theorem State.takeFires_acts (s : State) (stamp : Time) (l : List TermNo) : Acts round s (s.takeFires stamp l) := by
  unfold State.takeFires
  induction l generalizing s with
  | nil => exact .refl
  | cons i rest ih => exact (s.takeFire_acts stamp i).then (ih _)

theorem State.settleIndex_acts (s : State) (x : Schedule) (hj : s.joined = true) : Acts round s (s.settleIndex x) := by
  unfold State.settleIndex
  split
  · exact .refl
  · split
    case isTrue => exact .refl
    case isFalse htaken =>
      split
      case isTrue => exact .refl
      case isFalse ho =>
        split
        · exact .refl
        · rename_i t hroom
          simp only [State.tagTaken, Bool.or_eq_true, not_or, Bool.not_eq_true, Option.isSome_eq_false_iff,
            Option.isNone_iff_eq_none] at htaken
          exact (Act.originate s t _ _ _ hj hroom (by omega)
            (State.tagged?_none_of_sublist (State.makeRoom_table_sublist hroom) htaken.1) rfl ⟨_, rfl⟩ .refl
            (by constructor <;> rfl)).acts

theorem State.cadenceDue_joined {s : State} {g : Group} (h : s.cadenceDue g = true) : s.joined = true := by
  unfold State.cadenceDue at h
  split at h
  · simp only [Bool.and_eq_true] at h; exact h.1
  · cases h

theorem State.cadenceMoment_acts (g : Group) (s : State) : Acts round s (s.cadenceMoment g) := by
  unfold State.cadenceMoment
  split
  · split
    · rename_i hdue
      exact (s.settleIndex_acts _ (State.cadenceDue_joined hdue)).then
        (Update.schedules _ _ (.inr fun h => by simp [h])).quiet
    · exact .refl
  · exact .refl

theorem State.retentionEnd_acts (tag : Tag) (s : State) : Acts round s (s.retentionEnd tag) := by
  unfold State.retentionEnd
  split
  · split <;> [exact (Act.free s _).acts; exact .refl]
  · exact .refl

theorem State.collectionDeadline_acts (tag : Tag) (s : State) : Acts round s (s.collectionDeadline tag) := by
  unfold State.collectionDeadline
  split <;> [exact s.takeDeadline_acts _; exact .refl]

theorem State.pulse_acts (s : State) (g : Group) : Acts round s (s.pulse g) :=
  (Update.strobes s _ _ (fun h => by dsimp only; split <;> [rfl; exact h])
    (fun h => by dsimp only; split <;> [rfl; exact h])).quiet

theorem State.strobeInstant_acts (tag : Tag) (s : State) : Acts round s (s.strobeInstant tag) := by
  unfold State.strobeInstant
  split
  · split
    · exact (s.onEntry_acts _ (fun e => { e with strobe := .done }) fun e => ⟨rfl, rfl, rfl⟩).then
        (State.pulse_acts _ _)
    · exact .refl
  · exact .refl

theorem State.strobePulseEnd_acts (j : StrobeNo) (s : State) : Acts round s (s.strobePulseEnd j) := by
  unfold State.strobePulseEnd
  split
  · unfold State.setStrobe
    split
    · exact (Update.strobes s ⟨false, none⟩ s.cap.strobe1 (fun _ => rfl) id).quiet
    · exact (Update.strobes s s.cap.strobe0 ⟨false, none⟩ id (fun _ => rfl)).quiet
  · exact .refl

/-! ### Samples, presets, channels and terms -/

theorem State.sampleInstant_acts (s : State) : Acts round s s.sampleInstant := by
  unfold State.sampleInstant
  split
  · rename_i t hdue
    have hs : s.hist.nextInstant = some t ∧ s.running = true := by
      unfold State.sampleDue at hdue
      split at hdue
      · split_ifs at hdue with hr
        cases hdue
        simp only [Bool.and_eq_true] at hr
        exact ⟨by assumption, hr.1⟩
      · cases hdue
    exact (((Update.appendSamples s t hs.2 hs.1).quiet.then (State.foldl_resolveEntry_acts _ _)).then
      (Update.presets _ _ 0 (.refl _)).quiet).then (State.walkPresets_acts _)
  · split
    · exact (Update.passed s _).quiet
    · exact .refl

theorem State.takePresetDue_acts (s : State) : Acts round s s.takePresetDue := by
  unfold State.takePresetDue
  split <;> [exact s.walkPresets_acts; exact .refl]

/-- One channel changed by what keeps channels sound. -/
theorem State.setChannel_acts (s : State) (i : Chan) (c : Channel)
    (h : (s.chans.get i).sound = true → c.sound = true) : Acts round s { s with chans := s.chans.set i c } :=
  (Update.chans s _ fun j hj => by
    rw [Four.get_set]
    split
    · rename_i hij; subst hij; exact h hj
    · exact hj).quiet

theorem State.causeAppears_acts (i : Chan) (n : Line) (s : State) : Acts round s (s.causeAppears i n) := by
  unfold State.causeAppears
  split
  · exact .refl
  · dsimp only
    have hpin := (Update.pins (round := round) s (s.setCausePin i n true).pins).quiet
    split
    · exact hpin.then (State.setChannel_acts _ i _ fun h => Channel.causeAppears_sound h n)
    · exact hpin

theorem State.causeDisappears_acts (i : Chan) (n : Line) (s : State) : Acts round s (s.causeDisappears i n) := by
  unfold State.causeDisappears
  split
  · dsimp only
    have hpin := (Update.pins (round := round) s (s.setCausePin i n false).pins).quiet
    split
    · exact hpin.then (State.setChannel_acts _ i _ fun h => Channel.causeDisappears_sound h n _ _)
    · exact hpin
  · exact .refl

/-- R107: the timer runs only in UNCONFIRMED, so its expiry meets no FAULT channel. -/
theorem State.autoAck_acts (i : Chan) (s : State) : Acts round s (s.autoAck i) := by
  unfold State.autoAck
  split
  · rename_i hdue
    refine s.setChannel_acts i _ fun h => Channel.acknowledge_sound h ?_
    have htimer : (s.chans.get i).timer ≠ none := by
      intro hn; simp [State.autoAckDue, hn] at hdue
    simp [((s.chans.get i).sound_iff.mp h).2.2 htimer]
  · exact .refl

theorem State.stepTaken_acts (s : State) (i : Chan) (l : Lines) (first : List TermNo) :
    Acts round s (s.stepTaken i l first) := by
  have hstep : Acts round s (s.stepChannel i l) :=
    (s.setChannel_acts i _ fun h => Channel.decode_sound h _ _ _ _ _).then (Update.trig _ _).quiet
  unfold State.stepTaken
  dsimp only
  split
  · exact (hstep.then (Update.trig _ _).quiet).then (State.takeFires_acts _ _ _)
  · exact ((hstep.then (Update.trig _ _).quiet).then (Update.trig _ _).quiet).then (State.takeFires_acts _ _ _)

theorem State.encoderStep_acts (i : Chan) (l : Lines) (first : List TermNo) (s : State) :
    Acts round s (s.encoderStep i l first) := by
  have hpins := (Update.pins (round := round) s (s.setLevelPins i l).pins).quiet
  unfold State.encoderStep
  dsimp only
  split
  · exact hpins.then (State.stepTaken_acts _ _ _ _)
  · exact hpins

theorem State.rawChange_acts (i : InputNo) (level : Bool) (s : State) : Acts round s (s.rawChange i level) := by
  unfold State.rawChange
  split
  · exact .refl
  · dsimp only
    have hpins := (Update.pins (round := round) s { s.pins with inputs := s.pins.inputs.set i level }).quiet
    split
    · exact hpins.then (Update.trig _ _).quiet
    · exact hpins

theorem State.filteredChange_acts (i : InputNo) (first : List TermNo) (s : State) :
    Acts round s (s.filteredChange i first) := by
  unfold State.filteredChange
  split
  · exact .refl
  · exact ((Update.trig s _).quiet.then (Update.trig _ _).quiet).then (State.takeFires_acts _ _ _)

theorem State.holdoffExpiry_acts (i : TermNo) (s : State) : Acts round s (s.holdoffExpiry i) := by
  unfold State.holdoffExpiry
  split <;> [exact s.onTerm_acts _ _; exact .refl]

/-! ### The link on the bus -/

theorem State.starting_running {s : State} {f : QFrame} (h : s.starting = some f) : s.running = true := by
  unfold State.starting at h
  split at h
  · split_ifs at h with hs
    simp only [Bool.and_eq_true] at hs
    obtain ⟨⟨⟨hr, -⟩, -⟩, hallows⟩ := hs
    unfold State.running
    cases hl : s.ctrl.lifecycle <;> simp [hl, Lifecycle.allows, hr] at hallows ⊢
  · cases h

/-- R146: composing changes the entry's origin part or the reply list. -/
theorem State.compose_acts (s : State) (owner : Owner) (c : Content) (started : Bool) :
    Acts round s (s.compose owner c started).1 := by
  unfold State.compose
  split
  · split
    · exact .refl
    · exact s.onOrigin_acts _ (fun _ o => { o with expected := s.expectedSet _ }) fun _ _ => ⟨rfl, rfl, rfl⟩
  · split
    · exact s.onOrigin_acts _ (fun _ o => { o with begun := true }) fun _ _ => ⟨rfl, rfl, rfl⟩
    · exact .refl
  · exact .refl
  · split
    · split
      · exact .refl
      · refine (Update.req s _).quiet ⟨rfl, rfl, rfl, ?_, rfl, rfl, rfl, rfl, le_refl _⟩
        rw [List.map_map]
        exact List.map_congr_left fun r _ => by simp only [Function.comp_apply]; split <;> rfl
    · exact .refl
  · exact .refl

@[simp] theorem LinkUnit.fixContent_sending (l : LinkUnit) (c : Content) (bytes : List Byte) :
    (l.fixContent c bytes).sending = l.sending := by
  unfold LinkUnit.sending LinkUnit.fixContent
  cases l.flight <;> rfl

theorem State.frameStart_acts (s : State) : Acts round s s.frameStart := by
  unfold State.frameStart
  split
  · exact .refl
  · rename_i f hf
    have hlaunch : Acts round s (s.withLink (s.link.launch f s.time.localTime)) :=
      (Act.refit s _ (Update.link s _ fun _ => ⟨by simp [LinkUnit.launch], fun _ => ⟨State.starting_running hf, _, rfl⟩,
        by simp [LinkUnit.launch]⟩).updates (LinkUnit.launch_refit (State.starting_candidate hf) _)).acts
    refine (hlaunch.then (State.compose_acts _ f.owner f.content f.started)).then
      (Act.refit _ (LinkUnit.fixContent _ _ _) (Updates.onLink _ _ rfl rfl (LinkUnit.fixContent_sending ..) rfl) ?_).acts
    refine LinkUnit.fixContent_refit fun fl hfl => ?_
    rw [State.compose_link] at hfl
    refine (State.compose_kind ..).trans ?_
    cases Option.some.inj hfl
    rfl

theorem State.bitNow_taking {s : State} {fl : Flight} {k : Nat} (h : s.bitNow = some (fl, k)) :
    ∃ edge, s.link.receiver = .taking edge := by
  obtain ⟨-, edge, hr, -⟩ := State.bitNow_eq_some.mp h
  exact ⟨edge, hr⟩

/-- With the receiver within a frame no own mark is kept, so it may go on or wait without a flight. -/
theorem LinkUnit.Followed.landed {l l' : LinkUnit} {running : Bool} {edge : Time} (h : l.Followed running)
    (hr : l.receiver = .taking edge) (hr' : l'.receiver = l.receiver) (hf : l'.flight = none) (hm : l'.mark = l.mark) :
    l'.Followed running := by
  refine ⟨by simp [hr', hr], by simp [LinkUnit.sending, hf], fun hmark => ?_⟩
  have hwait := h.mark (hm ▸ hmark)
  rw [hr] at hwait
  cases hwait

theorem State.contested_flight {s : State} {fl : Flight} (h : s.contested = some fl) :
    s.link.flight = some fl ∧ ∃ edge, s.link.receiver = .taking edge := by
  obtain ⟨k, hk, -⟩ := State.contested_eq_some.mp h
  exact ⟨LinkUnit.onWire?_flight (State.bitNow_eq_some.mp hk).1, State.bitNow_taking hk⟩

theorem State.lostArbitration_acts (s : State) : Acts round s s.lostArbitration := by
  unfold State.lostArbitration
  split
  · exact .refl
  · rename_i fl hfl
    obtain ⟨hflight, edge, hr⟩ := State.contested_flight hfl
    dsimp only
    split
    · rename_i hfin
      refine (Act.lost s _ fl _ .withdrawn (.single (.link s _ fun h => ?_)) hflight (by constructor <;> rfl) rfl
        fun _ => hfin).acts
      exact h.landed hr rfl rfl rfl
    · refine (Act.refit s _ (.single (.link s _ fun h => ?_)) (LinkUnit.requeue_refit hflight _)).acts
      exact h.landed hr rfl rfl rfl

/-- R138, R147: what counting a discard changes. -/
theorem State.countDiscard_eq (s : State) : ∃ n x q, s.countDiscard =
    { s with link := { s.link with discards := n, state := x }, req := { s.req with quietMark := q } } := by
  unfold State.countDiscard
  dsimp only
  split
  · exact ⟨_, _, true, rfl⟩
  · exact ⟨_, s.link.state, s.req.quietMark, rfl⟩

theorem State.countDiscard_updates (s : State) : Updates round s s.countDiscard := by
  obtain ⟨n, x, q, h⟩ := s.countDiscard_eq
  rw [h]
  exact (Updates.onLink s { s.link with discards := n, state := x } rfl rfl rfl rfl).then (Update.req _ _).updates

theorem State.erring_flight {s : State} {fl : Flight} {dominant : Bool} (h : s.erring = some (fl, dominant)) :
    s.link.flight = some fl := by
  obtain ⟨k, hk, -⟩ := State.erring_eq_some.mp h
  exact LinkUnit.onWire?_flight (State.bitNow_eq_some.mp hk).1

theorem State.bitError_acts (s : State) : Acts round s s.bitError := by
  have hwait : ∀ l : LinkUnit, l.receiver = .waiting → l.sending = false → Updates round s (s.withLink l) :=
    fun l hr hs => (Update.link s l fun _ => ⟨by simp [hr], by simp [hs], fun _ => hr⟩).updates
  unfold State.bitError
  split
  · exact .refl
  · rename_i fl dominant hfl
    have hflight := State.erring_flight hfl
    dsimp only
    split
    · exact (Act.lost s _ fl _ .failed (hwait _ rfl rfl) hflight (by constructor <;> rfl) rfl (by simp)).acts
    · split
      · refine (Act.lost s _ fl _ .failed ((hwait _ rfl rfl).then (State.countDiscard_updates _)) hflight ?_ rfl
          (by simp)).acts
        obtain ⟨n, x, q, h⟩ := State.countDiscard_eq (s.withLink { s.link with
          idleCount := if dominant then s.link.idleCount else some 0
          receiver := .waiting, mark := some (addTicks s.time.localTime 1), flight := none })
        rw [h]
        constructor <;> rfl
      · refine (Act.refit s _ (hwait _ rfl rfl) ?_).acts
        exact LinkUnit.retry_refit hflight _ rfl rfl rfl rfl rfl

/-- R145: *sent* does what a loss does, but to a CALL and to a REPORT of an entry. -/
theorem State.sentOutcome_cases (s : State) (f : QFrame) :
    (∃ uid c, f.owner = .entry uid ∧ f.content = .call c ∧ s.sentOutcome f = s.callSent uid) ∨
    (∃ uid r, f.owner = .entry uid ∧ f.content = .report r ∧ s.sentOutcome f = s.reportSent uid) ∨
    s.sentOutcome f = s.lose f .failed := by
  obtain ⟨owner, content, age, attempts, started⟩ := f
  cases owner with
  | entry uid =>
    cases content with
    | call c => exact .inl ⟨uid, c, rfl, rfl, rfl⟩
    | report r => exact .inr (.inl ⟨uid, r, rfl, rfl, rfl⟩)
    | close _ | leave _ | beacon _ | reply _ _ => exact .inr (.inr rfl)
  | declined tag | time | reply id | controller => exact .inr (.inr rfl)

theorem State.sentDue_flight {s : State} {fl : Flight} (h : s.sentDue = some fl) : s.link.flight = some fl := by
  unfold State.sentDue at h
  split at h
  · rename_i edge hwire _
    split at h <;> cases h
    exact LinkUnit.onWire?_flight hwire
  · cases h

theorem State.frameSent_acts (s : State) : Acts round s s.frameSent := by
  unfold State.frameSent
  split
  · exact .refl
  · rename_i fl hdue
    have hfl := State.sentDue_flight hdue
    have hu : Updates round s (s.withLink { s.link with
        flight := none, discards := 0, idleCount := some 0, receiver := .waiting }) :=
      (Update.link s _ fun _ => ⟨by simp, by simp [LinkUnit.sending], fun _ => rfl⟩).updates
    have hb : SameBooks s.unflown (s.withLink { s.link with
        flight := none, discards := 0, idleCount := some 0, receiver := .waiting }) := by constructor <;> rfl
    rcases State.sentOutcome_cases (s.withLink _) fl.frame with ⟨uid, c, ho, hc, e⟩ | ⟨uid, r, ho, hc, e⟩ | e
    · rw [e]; exact (Act.callSent s _ fl uid hu hfl hb ho (by rw [hc]; rfl)).acts
    · rw [e]; exact (Act.landed s _ fl uid hu hfl hb ho (by simp [hc, Content.cls])).acts.then (State.reportSent_acts _ _)
    · rw [e]; exact (Act.lost s _ fl _ .failed hu hfl hb rfl (by simp)).acts

theorem State.quietEnd_acts (s : State) : Acts round s s.quietEnd := by
  unfold State.quietEnd
  split
  · exact (Act.quiet s _ (Updates.onLink s { s.link with state := .active } rfl rfl rfl rfl) (by constructor <;> rfl)).acts
  · exact .refl

theorem State.framingError_acts (kind : FramingKind) (s : State) : Acts round s (s.framingError kind) := by
  rcases s.framingError_cases kind with ⟨_, e⟩ | ⟨edge, hr, e⟩
  · rw [e]
  · rw [e]
    obtain ⟨-, -, hsending⟩ := State.receiving_eq_some.mp hr
    exact (Update.link s _ fun _ => ⟨by simp, by simpa [LinkUnit.sending] using hsending, fun _ => rfl⟩).quiet

theorem State.becomeIdle_acts (s : State) : Acts round s s.becomeIdle := by
  rcases s.becomeIdle_cases with ⟨_, e⟩ | ⟨hdue, e⟩
  · rw [e]
  · rw [e]
    obtain ⟨-, hidle, hwaiting⟩ := s.idleDue_iff.mp hdue
    refine Update.quiet (.link s _ fun h => ?_)
    refine ⟨fun _ => (LinkUnit.busIdle_iff _).mpr hidle, fun hs => ?_, fun hm => absurd rfl hm⟩
    obtain ⟨-, edge, hr⟩ := h.sending (by simpa [LinkUnit.sending] using hs)
    rw [hwaiting] at hr
    cases hr

/-! ### Loading -/

theorem State.configRead_acts (image : Option (List Byte)) (s : State) : Acts round s (s.configRead image) := by
  unfold State.configRead
  split
  case isTrue => exact .refl
  case isFalse hg =>
    have hs : s.released = true ∧ s.ctrl.lifecycle = .loading := by simpa using hg
    have hfailed : Acts round s s.readFailed := by
      unfold State.readFailed
      dsimp only
      split
      · refine .trans (Update.readFailures s (s.ctrl.readFailures + 1)).quiet ?_
        exact (Update.halt { s with ctrl := { s.ctrl with readFailures := s.ctrl.readFailures + 1 } } _ hs.1 hs.2).quiet (.of_lifecycle _ _ (by simp [hs.2, Lifecycle.leaveRoom]))
      · exact (Update.readFailures s _).quiet
    split
    · exact hfailed
    · split
      · exact hfailed
      · split
        · exact (Update.start s _ hs.1 hs.2).quiet (State.startListening_books s _ hs.2)
        · exact (Update.halt s _ hs.1 hs.2).quiet (.of_lifecycle s _ (by simp [hs.2, Lifecycle.leaveRoom]))

end

/-! ### Every effect -/

/-- Where the correction may change (R71): at a beacon slot and at the listen timer's expiry. -/
def isRound (c : Instr) : Prop := (∃ dt, c = .beaconSlot dt) ∨ ∃ dt, c = .listenTimerExpiry dt

theorem Acts.of_round {round : Prop} {s t : State} (h : Acts True s t) (hr : round) : Acts round s t :=
  (eq_true hr).symm ▸ h

/-- What an effect can be: a row of acts, the beginning of a reset hold, the extension of one, or the release. -/
theorem effect_acts (c : Instr) (s : State) :
    Acts (isRound c) s (effect c s) ∨
    (∃ k, s.ctrl.hold = none ∧ effect c s = s.beginHold k ∧
      ∃ dt, c = .powerOnReset dt ∨ c = .supplyLowReset dt ∨ c = .pinReset dt) ∨
    (∃ h x, s.ctrl.hold = some h ∧ effect c s = s.withHold (h.extend x)) ∨
    (∃ h dt straps normal, s.ctrl.hold = some h ∧ c = .resetRelease dt straps normal) := by
  have hreset : ∀ k x, (s.ctrl.hold = none ∧ s.resetCondition k x = s.beginHold k) ∨
      ∃ h, s.ctrl.hold = some h ∧ s.resetCondition k x = s.withHold (h.extend x) := by
    intro k x
    unfold State.resetCondition
    cases hh : s.ctrl.hold with
    | none => exact .inl ⟨rfl, rfl⟩
    | some h => exact .inr ⟨h, rfl, rfl⟩
  cases c
  case powerOnReset dt =>
    rcases hreset .powerOn .below150 with ⟨h, e⟩ | ⟨h, hh, e⟩
    · exact .inr (.inl ⟨_, h, e, dt, .inl rfl⟩)
    · exact .inr (.inr (.inl ⟨h, _, hh, e⟩))
  case supplyLowReset dt =>
    rcases hreset .supplyLow .below270 with ⟨h, e⟩ | ⟨h, hh, e⟩
    · exact .inr (.inl ⟨_, h, e, dt, .inr (.inl rfl)⟩)
    · exact .inr (.inr (.inl ⟨h, _, hh, e⟩))
  case pinReset dt =>
    rcases hreset .pin .nrstLow with ⟨h, e⟩ | ⟨h, hh, e⟩
    · exact .inr (.inl ⟨_, h, e, dt, .inr (.inr rfl)⟩)
    · exact .inr (.inr (.inl ⟨h, _, hh, e⟩))
  case resetRelease dt straps normal =>
    cases hh : s.ctrl.hold with
    | none => refine .inl ?_; simp only [effect, State.resetRelease, hh]; exact .refl
    | some h => exact .inr (.inr (.inr ⟨h, dt, straps, normal, rfl, rfl⟩))
  case furtherResetCondition dt x =>
    cases hh : s.ctrl.hold with
    | none => refine .inl ?_; simp only [effect, State.furtherReset, hh]; exact .refl
    | some h => exact .inr (.inr (.inl ⟨h, x, rfl, by simp [effect, State.furtherReset, hh]⟩))
  all_goals refine .inl ?_
  case beaconSlot dt => exact s.beaconSlot_acts.of_round (.inl ⟨dt, rfl⟩)
  case listenTimerExpiry dt => exact s.listenExpiry_acts.of_round (.inr ⟨dt, rfl⟩)
  case configReadAttempt => exact s.configRead_acts _
  case supplyWarning => exact s.supplyWarning_acts
  case supplyClear => exact s.supplyClear_acts
  case beaconArrival dt frame edge =>
    rcases s.stampedArrival_cases frame edge Body.isBeacon deliverBeacon with ⟨_, e⟩ | ⟨_, e⟩
    · rw [effect, e]
    · rw [effect, e]
      exact s.arrival_acts _ _ _ deliverBeacon_acts
  case leaveArrival => exact s.arrival_acts _ _ _ fun edge f u _ _ _ => deliverLeave_acts edge f u
  case callArrival => exact s.arrival_acts _ _ _ fun edge f u _ _ _ => deliverCall_acts edge f u
  case reportArrival => exact s.arrival_acts _ _ _ fun edge f u _ _ _ => deliverReport_acts edge f u
  case closeArrival => exact s.arrival_acts _ _ _ fun edge f u _ _ _ => deliverClose_acts edge f u
  case presetArrival => exact s.arrival_acts _ _ _ fun edge f u _ _ _ => deliverPreset_acts edge f u
  case statusRequest | termControlArm | termControlDisarm | faultAck | unknownRequest =>
    exact s.arrival_acts _ _ _ fun edge f u _ _ _ => deliverRequest_acts edge f u
  case replyArrival => exact s.arrival_acts _ _ _ fun _ _ _ _ _ _ => .refl
  case frameStart => exact s.frameStart_acts
  case lostArbitration => exact s.lostArbitration_acts
  case bitError => exact s.bitError_acts
  case frameSent => exact s.frameSent_acts
  case quietEnd => exact s.quietEnd_acts
  case sampleInstant => exact s.sampleInstant_acts
  case cadenceMoment dt g => exact s.cadenceMoment_acts g
  case retentionEnd dt tag => exact s.retentionEnd_acts tag
  case collectionDeadline dt tag => exact s.collectionDeadline_acts tag
  case strobeInstant dt tag => exact s.strobeInstant_acts tag
  case strobePulseEnd dt j => exact s.strobePulseEnd_acts j
  case presetDue => exact s.takePresetDue_acts
  case encoderStep dt i a b r first => exact s.encoderStep_acts i _ first
  case lineCauseAppears dt i n => exact s.causeAppears_acts i n
  case lineCauseDisappears dt i n => exact s.causeDisappears_acts i n
  case autoAckTimerExpiry dt i => exact s.autoAck_acts i
  case digitalInputRawChange dt i level => exact s.rawChange_acts i level
  case filteredInputChange dt i first => exact s.filteredChange_acts i first
  case holdoffExpiry dt i => exact s.holdoffExpiry_acts i
  case framingError dt kind => exact s.framingError_acts kind
  case busIdle => exact s.becomeIdle_acts

/-- What an effect can be: a row of updates, the beginning of a reset hold, the extension of one, or the release. -/
theorem effect_cases (c : Instr) (s : State) :
    Updates (isRound c) s (effect c s) ∨
    (∃ k, s.ctrl.hold = none ∧ effect c s = s.beginHold k ∧
      ∃ dt, c = .powerOnReset dt ∨ c = .supplyLowReset dt ∨ c = .pinReset dt) ∨
    (∃ h x, s.ctrl.hold = some h ∧ effect c s = s.withHold (h.extend x)) ∨
    (∃ h dt straps normal, s.ctrl.hold = some h ∧ c = .resetRelease dt straps normal) :=
  (effect_acts c s).imp_left Acts.updates

end Sys2Proof.Machine

/-!
PROOFS. The invariants that follow update by update: the lifecycle's agreements (R4, R26, R69, R129, R163, R170 to R173),
the tables, rings and channels (R1, R4, R6, R40, R52, R63, R80, R104, R107) and the receiver (R133, R134, R137, R139).
-/

namespace Sys2Proof.Machine

-- one declaration after the other: fewer threads at a time
set_option Elab.async false

/-! ### From the updates to the step -/

/-- What every update keeps, and the beginning, extension and release of a hold, every step keeps, where the lapse and the
settling step leave it alone. -/
theorem step_keeps_of_update {P : State → Prop} (hwaiting : ∀ s q, P s → P (s.withPending q))
    (hlapse : ∀ s dt, P s → P (s.elapse dt)) (hsettle : ∀ s, P s → P s.settle)
    (hupdate : ∀ {round : Prop} {s t : State}, Update round s t → P s → P t)
    (hbegin : ∀ s k, s.ctrl.hold = none → P s → P (s.beginHold k))
    (hextend : ∀ s h x, s.ctrl.hold = some h → P s → P (s.withHold (h.extend x)))
    (hrelease : ∀ s h straps normal, s.ctrl.hold = some h → P s → P (s.resetRelease straps normal))
    {s t : State} (h : step s = .next t) (hs : P s) : P t := by
  refine step_keeps hwaiting hlapse (fun c u hu => ?_) hsettle h hs
  rcases effect_cases c u with hrow | ⟨k, hh, e, -⟩ | ⟨x, y, hh, e⟩ | ⟨x, dt, straps, normal, hh, rfl⟩
  · exact hrow.keep (fun _ _ => hupdate) hu
  · exact e ▸ hbegin u k hh hu
  · exact e ▸ hextend u x y hh hu
  · exact hrelease u x straps normal hh hu

/-- What the release leaves: the controller released, halted where the straps read 0, and local time at 0. -/
theorem State.resetRelease_eq {s : State} {h : Hold} (hh : s.ctrl.hold = some h) (straps : Ident) (normal : Bool) :
    s.resetRelease straps normal = { s with
      time := { s.time with localTime := 0, phase := 0 }
      ctrl := { s.ctrl.release h straps normal with
        lifecycle := if straps = 0 then .halted else .loading
        haltReason := if straps = 0 then some .idZero else none } } := by
  simp only [State.resetRelease, hh]
  split <;> rfl

theorem State.leaveEnded_cases (s : State) :
    s.leaveEnded = s ∨ (s.ctrl.lifecycle = .leaving ∧ s.ctrl.monitor = .normal ∧ s.leaveEnded = s.listenAgain) ∨
      (s.ctrl.lifecycle = .leaving ∧ s.ctrl.monitor = .warning ∧
        s.leaveEnded = { s with ctrl := { s.ctrl with lifecycle := .withdrawn } }) := by
  unfold State.leaveEnded
  cases s.ctrl.lifecycle <;> cases s.ctrl.monitor <;> simp

/-- R170: what an accepted image makes of the state. -/
theorem State.startListening_eq (s : State) (image : Image) :
    s.startListening image = { s with
      image := image
      ctrl := { s.ctrl with
        lifecycle := if s.ctrl.monitor = .normal then .listening else .withdrawn
        listenTimer := if s.ctrl.monitor = .normal then some (addTicks s.time.localTime Config.listenPeriod) else none }
      time := { s.time with nextSlot := some (firstSlot s.ctrl.identity s.netTime) }
      chans := Four.build fun i =>
        Channel.start (image.modes.get i) (image.monitors.get i) (s.pins.levels.get i) (s.pins.causes.get i)
      hist := { s.hist with
        nextInstant := some (firstInstant s.time.localTime s.time.phase image.samplePeriod s.hist.passed) }
      trig := { s.trig with
        chans := Four.build fun i => startSignals (image.modes.get i) (s.pins.levels.get i) s.time.localTime
        inputs := Four.build fun i => ⟨s.pins.inputs.get i, s.time.localTime⟩
        filters := Four.all [] }
      link := { s.link with idleCount := some 0, receiver := .waiting } } := by
  unfold State.startListening
  dsimp only
  split
  · rename_i hm
    have hm' : s.ctrl.monitor = .normal := hm
    rw [if_pos hm', if_pos hm']
    rfl
  · rename_i hm
    have hm' : ¬ s.ctrl.monitor = .normal := by
      have hw : s.ctrl.monitor = .warning := hm
      simp [hw]
    rw [if_neg hm', if_neg hm']
    rfl

/-! ### Rest outside JOINED (R4, R32, R69) -/

theorem State.restSound_iff (s : State) :
    s.restSound = true ↔ (s.joined = false →
      s.cap.table = [] ∧ s.cap.declined = [] ∧ s.cap.schedules = [] ∧ s.hist.presets = []) := by
  unfold State.restSound
  cases s.joined <;> simp [and_assoc]

theorem Update.restSound {round : Prop} {s t : State} (h : Update round s t) (hs : s.restSound = true) :
    t.restSound = true := by
  rw [State.restSound_iff] at *
  cases h
  case freeEntry uid => intro hj; simp [State.freeEntry, hs hj]
  case remark g hg => intro hj; simp [hs hj]
  case dropOrigin uid => intro hj; simp [State.onEntry, hs hj]
  case origin uid f hf => intro hj; simp [State.onEntry, hs hj]
  case answer uid e o i declined he ho hc => intro hj; simp [State.onEntry, hs hj]
  case undecline tag => intro hj; simp [State.undecline, hs hj]
  case decline tag hjoined => intro hj; exact absurd (hj.symm.trans hjoined) (by simp)
  case addEntry u e hjoined hroom ho htag huid hanswers =>
    intro hj
    have hu : u.joined = true := (State.makeRoom_joined hroom).trans hjoined
    exact absurd (hj.symm.trans hu) (by simp)
  case schedules l hl =>
    intro hj
    obtain ⟨htable, hdeclined, hschedules, hpresets⟩ := hs hj
    rcases hl with hjoined | hl
    · exact absurd (hj.symm.trans hjoined) (by simp)
    · exact ⟨htable, hdeclined, hl hschedules, hpresets⟩
  case leaveEnded =>
    rcases s.leaveEnded_cases with e | ⟨hl, -, e⟩ | ⟨hl, -, e⟩ <;> rw [e]
    · exact hs
    all_goals exact fun _ => hs (by simp [State.joined, hl])
  case withdraw m hl => exact fun _ => hs (by simp [State.joined, hl])
  case listenAgain hl hm => exact fun _ => hs (by simp [State.joined, hl])
  case mute timer hl =>
    refine fun _ => hs ?_
    rcases hl with ⟨hl, -⟩ | ⟨hl | hl, -⟩ <;> simp [State.joined, hl]
  case leaveJoined l m hj hl => exact fun _ => ⟨rfl, rfl, rfl, rfl⟩
  case halt reason hr hl => exact fun _ => hs (by simp [State.joined, hl])
  case start image hr hl =>
    rw [State.startListening_eq]
    exact fun _ => hs (by simp [State.joined, hl])
  case join hr hl =>
    intro hj
    have hr' : s.ctrl.hold = none := by simpa [State.released] using hr
    simp [State.joined, State.released, hr'] at hj
  case presets l touched hl =>
    intro hj
    obtain ⟨htable, hdeclined, hschedules, hpresets⟩ := hs hj
    exact ⟨htable, hdeclined, hschedules, List.sublist_nil.mp (hpresets ▸ hl)⟩
  case addPreset p hjoined hroom => intro hj; exact absurd (hj.symm.trans hjoined) (by simp)
  all_goals exact hs

theorem restSound_kept {s t : State} (h : step s = .next t) (hs : s.restSound = true) : t.restSound = true := by
  refine step_keeps_of_update (P := fun s => s.restSound = true) ?_ ?_ ?_ Update.restSound ?_ ?_ ?_ h hs
  · exact fun s q hs => hs
  · intro s dt hs; simpa [State.restSound_iff] using hs
  · exact fun s hs => hs
  · exact fun s k _ _ => rfl
  · intro s h x hh hs
    rw [State.restSound_iff] at *
    exact fun _ => hs (by simp [State.joined, State.released, hh])
  · intro s h straps normal hh hs
    rw [State.restSound_iff] at *
    rw [State.resetRelease_eq hh]
    exact fun _ => hs (by simp [State.joined, State.released, hh])

/-! ### The controller (R163, R169, R170) -/

theorem State.controllerSound_iff (s : State) :
    s.controllerSound = true ↔ (s.ctrl.hold ≠ none → s.ctrl.lifecycle = .loading) ∧
      (s.ctrl.listenTimer.isSome = true ↔ s.ctrl.lifecycle = .listening) ∧
      (s.ctrl.haltReason.isSome = true ↔ s.ctrl.lifecycle = .halted) := by
  unfold State.controllerSound State.released
  cases s.ctrl.hold <;> cases s.ctrl.listenTimer <;> cases s.ctrl.haltReason <;> cases s.ctrl.lifecycle <;> simp

theorem Update.controllerSound {round : Prop} {s t : State} (h : Update round s t) (hs : s.controllerSound = true) :
    t.controllerSound = true := by
  rw [State.controllerSound_iff] at *
  obtain ⟨hhold, htimer, hhalt⟩ := hs
  cases h
  case addEntry u e hjoined hroom ho htag huid hanswers =>
    rcases s.makeRoom_cases with ⟨_, h⟩ | ⟨_, _, _, _, _, h⟩ | ⟨_, _, h⟩ <;> rw [h] at hroom <;> cases hroom <;>
      exact ⟨hhold, htimer, hhalt⟩
  case leaveEnded =>
    rcases s.leaveEnded_cases with e | ⟨hl, -, e⟩ | ⟨hl, -, e⟩ <;> rw [e]
    · exact ⟨hhold, htimer, hhalt⟩
    all_goals simp_all [State.listenAgain]
  case withdraw m hl => simp_all
  case listenAgain hl hm => simp_all [State.listenAgain]
  case mute timer hl => rcases hl with ⟨hl, rfl⟩ | ⟨hl | hl, rfl⟩ <;> simp_all
  case leaveJoined l m hj hl =>
    simp only [State.joined, State.released, Bool.and_eq_true, decide_eq_true_eq, Option.isNone_iff_eq_none] at hj
    rcases hl with rfl | rfl <;> simp_all
  case halt reason hr hl => simp_all [State.halt, State.released]
  case start image hr hl =>
    rw [State.startListening_eq]
    simp only [State.released, Option.isNone_iff_eq_none] at hr
    cases hm : s.ctrl.monitor <;> simp_all
  case join hr hl => simp_all [State.released]
  all_goals exact ⟨hhold, htimer, hhalt⟩

theorem controllerSound_kept {s t : State} (h : step s = .next t) (hs : s.controllerSound = true) :
    t.controllerSound = true := by
  refine step_keeps_of_update (P := fun s => s.controllerSound = true) ?_ ?_ ?_ Update.controllerSound ?_ ?_ ?_ h hs
  · exact fun s q hs => hs
  · intro s dt hs; simpa [State.controllerSound_iff] using hs
  · exact fun s hs => hs
  · exact fun s k _ _ => rfl
  · intro s h x hh hs
    simp_all [State.controllerSound_iff, State.withHold]
  · intro s h straps normal hh hs
    rw [State.resetRelease_eq hh, State.controllerSound_iff]
    simp only [Controller.release]
    split <;> simp

/-! ### The supply monitor (R172, R173) -/

theorem State.monitorSound_iff (s : State) :
    s.monitorSound = true ↔
      (s.ctrl.lifecycle = .listening ∨ s.ctrl.lifecycle = .joined → s.ctrl.monitor = .normal) := by
  unfold State.monitorSound
  cases s.ctrl.lifecycle <;> simp

theorem Update.monitorSound {round : Prop} {s t : State} (h : Update round s t) (hs : s.monitorSound = true) :
    t.monitorSound = true := by
  rw [State.monitorSound_iff] at *
  cases h
  case addEntry u e hjoined hroom ho htag huid hanswers =>
    rcases s.makeRoom_cases with ⟨_, h⟩ | ⟨_, _, _, _, _, h⟩ | ⟨_, _, h⟩ <;> rw [h] at hroom <;> cases hroom <;> exact hs
  case leaveEnded =>
    rcases s.leaveEnded_cases with e | ⟨-, hm, e⟩ | ⟨hl, -, e⟩ <;> rw [e]
    · exact hs
    · exact fun _ => hm
    · simp
  case withdraw m hl => simp
  case monitor m hm => exact fun hl => hm.elim id fun hm => absurd hl (by simp [hm])
  case listenAgain hl hm => exact fun _ => hm
  case mute timer hl => simp
  case leaveJoined l m hj hl => rcases hl with rfl | rfl <;> simp
  case halt reason hr hl => simp [State.halt]
  case start image hr hl =>
    rw [State.startListening_eq]
    cases hm : s.ctrl.monitor <;> simp
  case join hr hl => exact fun _ => hs (.inl hl)
  all_goals exact hs

theorem monitorSound_kept {s t : State} (h : step s = .next t) (hs : s.monitorSound = true) : t.monitorSound = true := by
  refine step_keeps_of_update (P := fun s => s.monitorSound = true) ?_ ?_ ?_ Update.monitorSound ?_ ?_ ?_ h hs
  · exact fun s q hs => hs
  · intro s dt hs; simpa [State.monitorSound_iff] using hs
  · exact fun s hs => hs
  · exact fun s k _ _ => rfl
  · exact fun s h x _ hs => hs
  · intro s h straps normal hh hs
    rw [State.resetRelease_eq hh, State.monitorSound_iff]
    dsimp only
    split <;> simp

/-! ### The strobes (R129) -/

theorem State.strobesSound_iff (s : State) :
    s.strobesSound = true ↔ s.cap.strobe0.high = s.cap.strobe0.pulseEnd.isSome ∧
      s.cap.strobe1.high = s.cap.strobe1.pulseEnd.isSome := by
  simp [State.strobesSound]

theorem Update.strobesSound {round : Prop} {s t : State} (h : Update round s t) (hs : s.strobesSound = true) :
    t.strobesSound = true := by
  rw [State.strobesSound_iff] at *
  cases h
  case addEntry u e hjoined hroom ho htag huid hanswers =>
    rcases s.makeRoom_cases with ⟨_, h⟩ | ⟨_, _, _, _, _, h⟩ | ⟨_, _, h⟩ <;> rw [h] at hroom <;> cases hroom <;> exact hs
  case strobes x y hx hy => exact ⟨hx hs.1, hy hs.2⟩
  case leaveEnded =>
    rcases s.leaveEnded_cases with e | ⟨-, -, e⟩ | ⟨-, -, e⟩ <;> rw [e] <;> exact hs
  case start image hr hl => rw [State.startListening_eq]; exact hs
  all_goals exact hs

theorem strobesSound_kept {s t : State} (h : step s = .next t) (hs : s.strobesSound = true) : t.strobesSound = true := by
  refine step_keeps_of_update (P := fun s => s.strobesSound = true) ?_ ?_ ?_ Update.strobesSound ?_ ?_ ?_ h hs
  · exact fun s q hs => hs
  · intro s dt hs; simpa [State.strobesSound_iff] using hs
  · exact fun s hs => hs
  · exact fun s k _ _ => rfl
  · exact fun s h x _ hs => hs
  · intro s h straps normal hh hs
    rw [State.resetRelease_eq hh]; exact hs

/-! ### The capture table (R1, R4, R6) -/

theorem State.tableSound_iff (s : State) :
    s.tableSound = true ↔ s.cap.table.length ≤ Config.tableSize ∧ s.originCount ≤ Config.originPlaces ∧
      (s.cap.table.map Entry.tag).Nodup := by
  simp [State.tableSound]

/-- A table of fewer entries is as sound. -/
theorem State.tableSound_of_sublist {s t : State} (h : t.cap.table.Sublist s.cap.table) (hs : s.tableSound = true) :
    t.tableSound = true := by
  rw [State.tableSound_iff] at *
  obtain ⟨hlen, horigin, htags⟩ := hs
  exact ⟨h.length_le.trans hlen, (State.originCount_le_of_sublist h).trans horigin, htags.sublist (h.map _)⟩

/-- A table of entries with the same tags and no more origin parts is as sound. -/
theorem State.tableSound_of_map {s t : State} {g : Entry → Entry} (h : t.cap.table = s.cap.table.map g)
    (htag : ∀ e, (g e).tag = e.tag) (horigin : ∀ e, (g e).origin ≠ none → e.origin ≠ none) (hs : s.tableSound = true) :
    t.tableSound = true := by
  rw [State.tableSound_iff] at *
  obtain ⟨hlen, hcount, htags⟩ := hs
  refine ⟨by simpa [h] using hlen, le_trans ?_ hcount, by simpa [h, Function.comp_def, htag] using htags⟩
  unfold State.originCount
  rw [h, ← List.countP_eq_length_filter, ← List.countP_eq_length_filter, List.countP_map]
  exact List.countP_mono_left fun e _ he => by
    have := horigin e (by simpa [Option.isSome_iff_ne_none] using he)
    simpa [Option.isSome_iff_ne_none] using this

theorem onEntry_apply {uid : Nat} {f : Entry → Entry} {P : Entry → Entry → Prop} (hid : ∀ e, P e e) (hf : ∀ e, P e (f e))
    (e : Entry) : P e (if e.uid = uid then f e else e) := by
  split <;> [exact hf e; exact hid e]

theorem Update.tableSound {round : Prop} {s t : State} (h : Update round s t) (hs : s.tableSound = true) :
    t.tableSound = true := by
  have honEntry : ∀ uid f, (∀ e : Entry, (f e).tag = e.tag) → (∀ e, (f e).origin ≠ none → e.origin ≠ none) →
      (s.onEntry uid f).tableSound = true := fun uid f htag horigin =>
    State.tableSound_of_map (t := s.onEntry uid f) rfl
      (onEntry_apply (P := fun e e' => e'.tag = e.tag) (fun _ => rfl) htag)
      (onEntry_apply (P := fun e e' => e'.origin ≠ none → e.origin ≠ none) (fun _ => id) horigin) hs
  cases h
  case freeEntry uid => exact State.tableSound_of_sublist List.filter_sublist hs
  case remark g hg =>
    exact State.tableSound_of_map rfl (fun e => (hg e).2.1) (fun e he => by rwa [(hg e).2.2] at he) hs
  case dropOrigin uid => exact honEntry _ _ (fun _ => rfl) (fun _ h => absurd rfl h)
  case origin uid f hf => exact honEntry _ _ (fun _ => rfl) (fun _ h => by simpa [Entry.onOrigin] using h)
  case answer uid e o i declined he ho hc => exact honEntry _ _ (fun _ => rfl) (fun _ h => by simpa [Entry.onOrigin] using h)
  case addEntry u e hjoined hroom ho htag huid hanswers =>
    have hu := State.tableSound_of_sublist (State.makeRoom_table_sublist hroom) hs
    rw [State.tableSound_iff] at *
    obtain ⟨hlen, hcount, htags⟩ := hu
    have hlt := State.makeRoom_room hs.1 hroom
    refine ⟨by simpa using hlt, ?_, ?_⟩
    · unfold State.originCount at *
      rw [State.addEntry_table, List.filter_append, List.length_append]
      cases horigin : e.origin with
      | none => simpa [horigin] using hcount
      | some o =>
        have hle := State.originCount_le_of_sublist (State.makeRoom_table_sublist hroom)
        have := ho (by simp [horigin])
        simp only [State.originCount] at hle this
        simp [horigin]; omega
    · rw [State.addEntry_table, List.map_append, List.nodup_append]
      refine ⟨htags, by simp, ?_⟩
      simp only [State.tagged?, List.find?_eq_none, decide_eq_true_eq] at htag
      simpa using htag
  case leaveEnded =>
    rcases s.leaveEnded_cases with e | ⟨-, -, e⟩ | ⟨-, -, e⟩ <;> rw [e] <;> exact hs
  case start image hr hl => rw [State.startListening_eq]; exact hs
  case leaveJoined l m hj hl => exact State.tableSound_of_sublist (List.nil_sublist _) hs
  all_goals exact hs

theorem tableSound_kept {s t : State} (h : step s = .next t) (hs : s.tableSound = true) : t.tableSound = true := by
  refine step_keeps_of_update (P := fun s => s.tableSound = true) ?_ ?_ ?_ Update.tableSound ?_ ?_ ?_ h hs
  · exact fun s q hs => hs
  · intro s dt hs; simpa [State.tableSound_iff, State.originCount] using hs
  · exact fun s hs => hs
  · exact fun s k _ _ => rfl
  · exact fun s h x _ hs => hs
  · intro s h straps normal hh hs
    rw [State.resetRelease_eq hh]; exact hs

/-! ### The names of entries and their answers (R6, R40, R41) -/

theorem State.uidsSound_iff (s : State) :
    s.uidsSound = true ↔ (s.cap.table.map Entry.uid).Nodup ∧ ∀ e ∈ s.cap.table, e.uid < s.cap.nextUid := by
  simp [State.uidsSound]

theorem State.uidsSound_of_sublist {s t : State} (h : t.cap.table.Sublist s.cap.table) (hn : t.cap.nextUid = s.cap.nextUid)
    (hs : s.uidsSound = true) : t.uidsSound = true := by
  rw [State.uidsSound_iff] at *
  exact ⟨hs.1.sublist (h.map _), fun e he => hn ▸ hs.2 e (h.subset he)⟩

theorem State.uidsSound_of_map {s t : State} {g : Entry → Entry} (h : t.cap.table = s.cap.table.map g)
    (hn : t.cap.nextUid = s.cap.nextUid) (hg : ∀ e, (g e).uid = e.uid) (hs : s.uidsSound = true) : t.uidsSound = true := by
  rw [State.uidsSound_iff] at *
  refine ⟨by simpa [h, Function.comp_def, hg] using hs.1, ?_⟩
  rw [h, hn]
  intro e he
  obtain ⟨x, hx, rfl⟩ := List.mem_map.mp he
  exact (hg x).symm ▸ hs.2 x hx

theorem State.makeRoom_nextUid {s t : State} (h : s.makeRoom = some t) : t.cap.nextUid = s.cap.nextUid := by
  rcases s.makeRoom_cases with ⟨_, e⟩ | ⟨_, _, _, _, _, e⟩ | ⟨_, _, e⟩ <;> rw [e] at h <;> cases h <;> rfl

theorem Update.uidsSound {round : Prop} {s t : State} (h : Update round s t) (hs : s.uidsSound = true) :
    t.uidsSound = true := by
  have honEntry : ∀ uid f, (∀ e : Entry, (f e).uid = e.uid) → (s.onEntry uid f).uidsSound = true := fun uid f huid =>
    State.uidsSound_of_map (t := s.onEntry uid f) rfl rfl
      (onEntry_apply (P := fun e e' => e'.uid = e.uid) (fun _ => rfl) huid) hs
  cases h
  case freeEntry uid => exact State.uidsSound_of_sublist List.filter_sublist rfl hs
  case remark g hg => exact State.uidsSound_of_map rfl rfl (fun e => (hg e).1) hs
  case dropOrigin uid => exact honEntry _ _ fun _ => rfl
  case origin uid f hf => exact honEntry _ _ fun _ => rfl
  case answer uid e o i declined he ho hc => exact honEntry _ _ fun _ => rfl
  case addEntry u e hjoined hroom ho htag huid hanswers =>
    have hu := State.uidsSound_of_sublist (State.makeRoom_table_sublist hroom) (State.makeRoom_nextUid hroom) hs
    rw [State.uidsSound_iff] at *
    obtain ⟨hnodup, hlt⟩ := hu
    rw [State.addEntry_table, State.addEntry_nextUid]
    refine ⟨?_, fun x hx => ?_⟩
    · rw [List.map_append, List.nodup_append]
      refine ⟨hnodup, by simp, ?_⟩
      simp only [List.mem_map, List.map_cons, List.map_nil, List.mem_singleton]
      rintro _ ⟨x, hx, rfl⟩ _ rfl
      have := hlt x hx
      omega
    · rcases List.mem_append.mp hx with hx | hx
      · have := hlt x hx; omega
      · rw [List.mem_singleton.mp hx, huid]; omega
  case leaveEnded =>
    rcases s.leaveEnded_cases with e | ⟨-, -, e⟩ | ⟨-, -, e⟩ <;> rw [e] <;> exact hs
  case start image hr hl => rw [State.startListening_eq]; exact hs
  case leaveJoined l m hj hl => exact State.uidsSound_of_sublist (s := s) (List.nil_sublist _) rfl hs
  all_goals exact hs

theorem uidsSound_kept {s t : State} (h : step s = .next t) (hs : s.uidsSound = true) : t.uidsSound = true := by
  refine step_keeps_of_update (P := fun s => s.uidsSound = true) ?_ ?_ ?_ Update.uidsSound ?_ ?_ ?_ h hs
  · exact fun s q hs => hs
  · intro s dt hs; simpa [State.uidsSound_iff] using hs
  · exact fun s hs => hs
  · exact fun s k _ _ => rfl
  · exact fun s h x _ hs => hs
  · intro s h straps normal hh hs
    rw [State.resetRelease_eq hh]; exact hs

/-- With uids told apart an entry of the table is the one of its uid. -/
theorem State.entry?_of_mem {s : State} (hs : s.uidsSound = true) {e : Entry} (he : e ∈ s.cap.table) :
    s.entry? e.uid = some e := by
  obtain ⟨hnodup, -⟩ := s.uidsSound_iff.mp hs
  unfold State.entry?
  generalize s.cap.table = table at he hnodup
  induction table with
  | nil => cases he
  | cons x rest ih =>
    rw [List.map_cons, List.nodup_cons] at hnodup
    rcases List.mem_cons.mp he with rfl | he
    · simp
    · have hne : x.uid ≠ e.uid := fun heq => hnodup.1 (heq ▸ List.mem_map_of_mem he)
      rw [List.find?_cons_of_neg (by simpa using hne)]
      exact ih he hnodup.2

theorem State.answersSound_iff (s : State) :
    s.answersSound = true ↔ ∀ e ∈ s.cap.table, ∀ o, e.origin = some o → o.responders &&& o.decliners = 0 := by
  unfold State.answersSound
  rw [List.all_eq_true]
  refine forall₂_congr fun e _ => ?_
  cases e.origin <;> simp

theorem hasIdent_or (x y : IdSet) (i : Ident) : hasIdent (x ||| y) i = (hasIdent x i || hasIdent y i) := by
  simp [hasIdent]

theorem identBit_getLsbD (i : Ident) (n : Nat) : (identBit i).getLsbD n = decide (n = i.toNat) := by
  have hi : i.toNat < 32 := i.isLt
  rw [identBit, BitVec.getLsbD_shiftLeft]
  by_cases hn : n = i.toNat
  · subst hn; simp [hi]
  · by_cases hlt : n < i.toNat
    · simp [hlt, hn]
    · simp [hn]; omega

/-- R40: an identity that is in neither set keeps the sets apart in whichever it joins. -/
theorem answers_disjoint {x y : IdSet} {i : Ident} (h : x &&& y = 0) (hi : hasIdent (x ||| y) i = false) :
    (x ||| identBit i) &&& y = 0 ∧ x &&& (y ||| identBit i) = 0 := by
  simp only [hasIdent, BitVec.getLsbD_or, Bool.or_eq_false_iff] at hi
  have hxy : ∀ n, (x.getLsbD n && y.getLsbD n) = false := fun n => by
    rw [← BitVec.getLsbD_and, h]; simp
  constructor <;> apply BitVec.eq_of_getLsbD_eq <;> intro n _ <;>
    simp only [BitVec.getLsbD_and, BitVec.getLsbD_or, identBit_getLsbD] <;>
    by_cases hn : n = i.toNat <;> simp [hn, hi, hxy]

theorem Update.answersSound {round : Prop} {s t : State} (h : Update round s t) (huids : s.uidsSound = true)
    (hs : s.answersSound = true) : t.answersSound = true := by
  rw [State.answersSound_iff] at *
  have hmap : ∀ g : Entry → Entry,
      (∀ e ∈ s.cap.table, ∀ o, (g e).origin = some o → o.responders &&& o.decliners = 0) →
      ∀ e ∈ s.cap.table.map g, ∀ o, e.origin = some o → o.responders &&& o.decliners = 0 := by
    intro g hg e he
    obtain ⟨x, hx, rfl⟩ := List.mem_map.mp he
    exact hg x hx
  cases h
  case freeEntry uid => exact fun e he => hs e (List.mem_of_mem_filter he)
  case remark g hg => exact hmap g fun e he o ho => hs e he o ((hg e).2.2 ▸ ho)
  case dropOrigin uid =>
    refine hmap _ fun e he o ho => ?_
    split at ho
    · cases ho
    · exact hs e he o ho
  case origin uid f hf =>
    refine hmap _ fun e he o ho => ?_
    split at ho
    · obtain ⟨o', ho', rfl⟩ := Option.map_eq_some_iff.mp ho
      rw [(hf e o').1, (hf e o').2]
      exact hs e he o' ho'
    · exact hs e he o ho
  case answer uid e o i declined he ho hc =>
    refine hmap _ fun x hx o' ho' => ?_
    split at ho'
    · rename_i huid
      have hxe : x = e := by
        have := State.entry?_of_mem huids hx
        rw [huid, he] at this
        exact (Option.some.inj this).symm
      subst hxe
      have hd := answers_disjoint (hs x hx o ho) hc
      simp only [Entry.onOrigin, ho, Option.map_some, Option.some.injEq] at ho'
      subst ho'
      cases declined
      · exact hd.1
      · exact hd.2
    · exact hs x hx o' ho'
  case addEntry u e hjoined hroom ho htag huid hanswers =>
    intro x hx
    rw [State.addEntry_table] at hx
    rcases List.mem_append.mp hx with hx | hx
    · exact hs x ((State.makeRoom_table_sublist hroom).subset hx)
    · exact List.mem_singleton.mp hx ▸ hanswers
  case leaveEnded =>
    rcases s.leaveEnded_cases with e | ⟨-, -, e⟩ | ⟨-, -, e⟩ <;> rw [e] <;> exact hs
  case start image hr hl => rw [State.startListening_eq]; exact hs
  case leaveJoined l m hj hl => exact fun e he => by cases he
  all_goals exact hs

theorem answersSound_kept {s t : State} (h : step s = .next t) (huids : s.uidsSound = true) (hs : s.answersSound = true) :
    t.answersSound = true := by
  refine (step_keeps_of_update (P := fun s => s.uidsSound = true ∧ s.answersSound = true) ?_ ?_ ?_
    (fun hu hs => ⟨hu.uidsSound hs.1, hu.answersSound hs.1 hs.2⟩) ?_ ?_ ?_ h ⟨huids, hs⟩).2
  · exact fun s q hs => hs
  · intro s dt hs; simpa [State.uidsSound_iff, State.answersSound_iff] using hs
  · exact fun s hs => hs
  · exact fun s k _ _ => ⟨rfl, rfl⟩
  · exact fun s h x _ hs => hs
  · intro s h straps normal hh hs
    rw [State.resetRelease_eq hh]; exact hs

end Sys2Proof.Machine

/-!
PROOFS. The receiver's agreements (R133, R134, R137, R139), the peer table (R80), the presets (R63), the rings and their
spacing (R50, R52, R54) and the channels (R95, R104, R106, R107), step by step.
-/

namespace Sys2Proof.Machine

-- one declaration after the other: fewer threads at a time
set_option Elab.async false

/-! ### The receiver over a lapse -/

theorem State.running_iff (s : State) :
    s.running = true ↔ s.ctrl.hold = none ∧ s.ctrl.lifecycle ≠ .loading ∧ s.ctrl.lifecycle ≠ .halted := by
  unfold State.running State.released
  cases s.ctrl.lifecycle <;> simp

/-- A receiver ready for a start bit finds none only where nobody drives the bus. -/
theorem State.dominant_of_no_startBit {s : State} {dt : Lapse} {count : Nat} (hready : s.link.receiver = .ready)
    (hmark : s.link.mark = none) (hidle : 12 ≤ count) (hnone : s.startBit dt count = none) :
    ∀ k ∈ s.dominantIn dt, dt.ticks ≤ k := by
  have hown : s.dominantIn dt = dt.dominant := by
    have honWire : s.link.ownDominant = [] := by
      unfold LinkUnit.ownDominant
      rw [hready, hmark]
      cases s.link.onWire? <;> rfl
    simp [State.dominantIn, honWire]
  have hshort : ∀ k ∈ dt.dominant, k < dt.ticks → idleAfter count dt.dominant k < 12 := by
    simp only [State.startBit, hready, List.min?_eq_none_iff, List.filter_eq_nil_iff, Config.idleBits, hown] at hnone
    intro k hk hlt
    have := hnone k hk
    simp only [decide_eq_true_eq, hlt, true_and] at this
    omega
  rw [hown]
  intro k
  induction k using Nat.strong_induction_on with
  | _ k ih =>
    intro hk
    by_contra hlt
    have hfirst : ∀ j ∈ dt.dominant, k ≤ j := fun j hj => by
      by_contra hjk
      have := ih j (by omega) hj
      omega
    have := hshort k hk (by omega)
    rw [idleAfter_recessive hfirst] at this
    omega

theorem LinkUnit.Followed.of_running {l : LinkUnit} {r r' : Bool} (h : l.Followed r) (hr : r = true → r' = true) :
    l.Followed r' :=
  ⟨h.ready, fun hs => ⟨hr (h.sending hs).1, (h.sending hs).2⟩, h.mark⟩

theorem LinkUnit.Followed.watchBus {s : State} (h : s.link.Followed s.running) (dt : Lapse) :
    (s.watchBus dt).Followed s.running := by
  cases hrunning : s.running with
  | false => rw [State.watchBus_stopped dt hrunning, ← hrunning]; exact h
  | true =>
    rw [hrunning] at h
    cases hcount : s.link.idleCount with
    | none => simpa [State.watchBus, hcount] using h
    | some count =>
      rw [State.watchBus_running dt hrunning hcount]
      cases hbit : s.startBit dt count with
      | some k => exact ⟨fun hr => by simp at hr, fun _ => ⟨rfl, _, rfl⟩, fun hm => by simp at hm⟩
      | none =>
        refine ⟨fun hready => ?_, h.sending, h.mark⟩
        have hreceiver : s.link.receiver = .ready := hready
        have hmark : s.link.mark = none := by
          by_contra hm
          have := h.mark hm
          rw [hreceiver] at this
          cases this
        obtain ⟨n, hn, hidle⟩ := (LinkUnit.busIdle_iff _).mp (h.ready hreceiver)
        cases hcount.symm.trans hn
        refine (LinkUnit.busIdle_iff _).mpr ⟨_, rfl, ?_⟩
        rw [idleAfter_recessive (State.dominant_of_no_startBit hreceiver hmark hidle hbit)]
        omega

theorem LinkUnit.Followed.elapse {s : State} (h : s.link.Followed s.running) (dt : Lapse) :
    (s.elapse dt).link.Followed (s.elapse dt).running := by
  rw [State.elapse_running]
  cases hh : s.ctrl.hold with
  | some x => rw [State.elapse_held dt hh]; exact h
  | none => rw [State.elapse_released dt hh]; exact h.watchBus dt

theorem Update.followed {round : Prop} {s t : State} (h : Update round s t) (hs : s.link.Followed s.running) :
    t.link.Followed t.running := by
  have hstays : ∀ u : State, u.link = s.link → u.ctrl.hold = s.ctrl.hold → u.ctrl.lifecycle ≠ .loading →
      u.ctrl.lifecycle ≠ .halted → u.link.Followed u.running := by
    intro u hlink hhold hloading hhalted
    rw [hlink]
    refine hs.of_running fun hr => ?_
    rw [State.running_iff] at *
    exact ⟨hhold.trans hr.1, hloading, hhalted⟩
  cases h
  case link l hl => exact hl hs
  case freeEntry uid => exact hs.of_same rfl rfl rfl rfl
  case addEntry u e hjoined hroom ho htag huid hanswers =>
    rcases s.makeRoom_cases with ⟨_, h⟩ | ⟨_, _, _, _, _, h⟩ | ⟨_, _, h⟩ <;> rw [h] at hroom <;> cases hroom <;>
      exact hs.of_same rfl rfl rfl rfl
  case leaveEnded =>
    rcases s.leaveEnded_cases with e | ⟨-, -, e⟩ | ⟨-, -, e⟩ <;> rw [e]
    · exact hs
    · exact hstays _ rfl rfl (by simp [State.listenAgain]) (by simp [State.listenAgain])
    · exact hstays _ rfl rfl (by simp) (by simp)
  case withdraw m hl => exact hstays _ rfl rfl (by simp) (by simp)
  case listenAgain hl hm => exact hstays _ rfl rfl (by simp [State.listenAgain]) (by simp [State.listenAgain])
  case mute timer hl => exact hstays _ rfl rfl (by simp) (by simp)
  case leaveJoined l m hj hl => exact hstays _ rfl rfl (by rcases hl with rfl | rfl <;> simp) (by rcases hl with rfl | rfl <;> simp)
  case halt reason hr hl => exact hs.of_running fun hr => by simp [State.running_iff, hl] at hr
  case start image hr hl =>
    rw [State.startListening_eq]
    refine ⟨by simp, fun hsending => ?_, by simp⟩
    have := (hs.sending hsending).1
    simp [State.running_iff, hl] at this
  case join hr hl => exact hstays _ rfl rfl (by simp) (by simp)
  all_goals exact hs

theorem receiverSound_kept {s t : State} (h : step s = .next t) (hs : s.receiverSound = true) :
    t.receiverSound = true := by
  rw [State.receiverSound_iff] at *
  refine step_keeps_of_update (P := fun s => s.link.Followed s.running) ?_ ?_ ?_ Update.followed ?_ ?_ ?_ h hs
  · exact fun s q hs => hs
  · exact fun s dt hs => hs.elapse dt
  · exact fun s hs => hs
  · exact fun s k _ _ => (State.receiverSound_iff _).mp rfl
  · intro s h x hh hs
    exact hs.of_running fun hr => by simp [State.running_iff, hh] at hr
  · intro s h straps normal hh hs
    rw [State.resetRelease_eq hh]
    exact hs.of_running fun hr => by simp [State.running_iff, hh] at hr

/-! ### The peer table (R80) -/

theorem State.peersSound_iff (s : State) :
    s.peersSound = true ↔ (s.time.peers.map Peer.ident).Pairwise (fun a b => a.toNat < b.toNat) ∧
      ∀ i ∈ s.time.peers.map Peer.ident, i ≠ 0 ∧ i ≠ s.ctrl.identity := by
  simp [State.peersSound, List.pairwise_map]

/-- R80: putting a peer in its place keeps the identities in ascending order. -/
theorem putPeer_ascending (p : Peer) {l : List Peer}
    (h : (l.map Peer.ident).Pairwise (fun a b => a.toNat < b.toNat)) :
    ((putPeer p l).map Peer.ident).Pairwise (fun a b => a.toNat < b.toNat) := by
  rw [List.pairwise_map] at *
  induction l with
  | nil => simp [putPeer]
  | cons q rest ih =>
    have hrest := h
    rw [List.pairwise_cons] at h
    obtain ⟨hq, htail⟩ := h
    unfold putPeer
    split
    case isTrue hlt =>
      have hlt' : p.ident.toNat < q.ident.toNat := by simpa [BitVec.lt_def] using hlt
      refine List.pairwise_cons.mpr ⟨fun x hx => ?_, hrest⟩
      rcases List.mem_cons.mp hx with rfl | hx
      · exact hlt'
      · exact hlt'.trans (hq x hx)
    case isFalse hge =>
      split
      case isTrue heq => exact List.pairwise_cons.mpr ⟨fun x hx => heq ▸ hq x hx, htail⟩
      case isFalse hne =>
        refine List.pairwise_cons.mpr ⟨fun x hx => ?_, ih htail⟩
        rcases mem_putPeer hx with rfl | hx
        · have : x.ident.toNat ≠ q.ident.toNat := fun h => hne (BitVec.eq_of_toNat_eq h)
          simp only [BitVec.lt_def, not_lt] at hge
          omega
        · exact hq x hx

/-- The peer table is sound, and empty while a hold stands. -/
def State.peersHeld (s : State) : Prop := s.peersSound = true ∧ (s.ctrl.hold ≠ none → s.time.peers = [])

theorem Update.peersHeld {round : Prop} {s t : State} (h : Update round s t) (hs : s.peersHeld) : t.peersHeld := by
  obtain ⟨hsound, hheld⟩ := hs
  unfold State.peersHeld at *
  rw [State.peersSound_iff] at *
  cases h
  case addEntry u e hjoined hroom ho htag huid hanswers =>
    rcases s.makeRoom_cases with ⟨_, h⟩ | ⟨_, _, _, _, _, h⟩ | ⟨_, _, h⟩ <;> rw [h] at hroom <;> cases hroom <;>
      exact ⟨hsound, hheld⟩
  case leaveEnded =>
    rcases s.leaveEnded_cases with e | ⟨-, -, e⟩ | ⟨-, -, e⟩ <;> rw [e] <;> exact ⟨hsound, hheld⟩
  case start image hr hl => rw [State.startListening_eq]; exact ⟨hsound, hheld⟩
  case time c x l slot hpeers hround =>
    refine ⟨⟨hsound.1.sublist hpeers, fun i hi => hsound.2 i (hpeers.subset hi)⟩, fun hh => ?_⟩
    simpa [hheld hh] using hpeers
  case hear p hzero hown hr =>
    refine ⟨⟨putPeer_ascending p hsound.1, fun i hi => ?_⟩, fun hh => ?_⟩
    · obtain ⟨q, hq, rfl⟩ := List.mem_map.mp hi
      rcases mem_putPeer hq with rfl | hq
      · exact ⟨hzero, hown⟩
      · exact hsound.2 _ (List.mem_map_of_mem hq)
    · simp only [State.released, Option.isNone_iff_eq_none] at hr
      exact absurd hr hh
  all_goals exact ⟨hsound, hheld⟩

theorem peersSound_kept {s t : State} (h : step s = .next t) (hhold : s.holdSound = true) (hs : s.peersSound = true) :
    t.peersSound = true := by
  have hstart : s.peersHeld := by
    refine ⟨hs, fun hh => ?_⟩
    obtain ⟨x, hx⟩ := Option.ne_none_iff_exists'.mp hh
    simp only [State.holdSound, hx, State.blocksAtReset, Bool.and_eq_true, decide_eq_true_eq] at hhold
    obtain ⟨⟨-, htime, -⟩, -⟩ := hhold
    rw [htime]; rfl
  refine (step_keeps_of_update (P := State.peersHeld) ?_ ?_ ?_ Update.peersHeld ?_ ?_ ?_ h hstart).1
  · exact fun s q hs => hs
  · intro s dt hs; simpa [State.peersHeld, State.peersSound_iff] using hs
  · exact fun s hs => hs
  · exact fun s k _ _ => ⟨rfl, fun _ => rfl⟩
  · exact fun s h x hh hs => ⟨hs.1, fun _ => hs.2 (by simp [hh])⟩
  · intro s h straps normal hh hs
    have hempty : s.time.peers = [] := hs.2 (by simp [hh])
    rw [State.resetRelease_eq hh]
    simp [State.peersHeld, State.peersSound_iff, hempty]

/-! ### Presets, rings and channels (R52, R63, R104) -/

theorem State.presetsSound_iff (s : State) : s.presetsSound = true ↔ s.hist.presets.length ≤ Config.presetSize := by
  simp [State.presetsSound]

theorem Update.presetsSound {round : Prop} {s t : State} (h : Update round s t) (hs : s.presetsSound = true) :
    t.presetsSound = true := by
  rw [State.presetsSound_iff] at *
  cases h
  case addEntry u e hjoined hroom ho htag huid hanswers =>
    rcases s.makeRoom_cases with ⟨_, h⟩ | ⟨_, _, _, _, _, h⟩ | ⟨_, _, h⟩ <;> rw [h] at hroom <;> cases hroom <;> exact hs
  case leaveEnded =>
    rcases s.leaveEnded_cases with e | ⟨-, -, e⟩ | ⟨-, -, e⟩ <;> rw [e] <;> exact hs
  case start image hr hl => rw [State.startListening_eq]; exact hs
  case leaveJoined l m hj hl => exact Nat.zero_le _
  case presets l touched hl => exact hl.length_le.trans hs
  case addPreset p hj hroom => rw [length_insertPreset]; exact hroom
  all_goals exact hs

theorem presetsSound_kept {s t : State} (h : step s = .next t) (hs : s.presetsSound = true) : t.presetsSound = true := by
  refine step_keeps_of_update (P := fun s => s.presetsSound = true) ?_ ?_ ?_ Update.presetsSound ?_ ?_ ?_ h hs
  · exact fun s q hs => hs
  · intro s dt hs; simpa [State.presetsSound_iff] using hs
  · exact fun s hs => hs
  · exact fun s k _ _ => rfl
  · exact fun s h x _ hs => hs
  · intro s h straps normal hh hs
    rw [State.resetRelease_eq hh]; exact hs

theorem State.ringsSound_iff (s : State) : s.ringsSound = true ↔ ∀ i, (s.hist.rings.get i).length ≤ Config.ringSize := by
  simp [State.ringsSound, mem_four]

theorem Update.ringsSound {round : Prop} {s t : State} (h : Update round s t) (hs : s.ringsSound = true) :
    t.ringsSound = true := by
  rw [State.ringsSound_iff] at *
  cases h
  case addEntry u e hjoined hroom ho htag huid hanswers =>
    rcases s.makeRoom_cases with ⟨_, h⟩ | ⟨_, _, _, _, _, h⟩ | ⟨_, _, h⟩ <;> rw [h] at hroom <;> cases hroom <;> exact hs
  case leaveEnded =>
    rcases s.leaveEnded_cases with e | ⟨-, -, e⟩ | ⟨-, -, e⟩ <;> rw [e] <;> exact hs
  case start image hr hl => rw [State.startListening_eq]; exact hs
  case appendSamples t hr ht =>
    intro i
    simp only [State.appendSamples, Four.get_build]
    split
    · exact pushSample_length (hs i) _
    · exact hs i
  all_goals exact hs

theorem ringsSound_kept {s t : State} (h : step s = .next t) (hs : s.ringsSound = true) : t.ringsSound = true := by
  refine step_keeps_of_update (P := fun s => s.ringsSound = true) ?_ ?_ ?_ Update.ringsSound ?_ ?_ ?_ h hs
  · exact fun s q hs => hs
  · intro s dt hs; simpa [State.ringsSound_iff] using hs
  · exact fun s hs => hs
  · exact fun s k _ _ => rfl
  · exact fun s h x _ hs => hs
  · intro s h straps normal hh hs
    rw [State.resetRelease_eq hh]; exact hs

theorem State.channelsSound_iff (s : State) : s.channelsSound = true ↔ ∀ i, (s.chans.get i).sound = true := by
  simp [State.channelsSound, mem_four]

theorem Update.channelsSound {round : Prop} {s t : State} (h : Update round s t) (hs : s.channelsSound = true) :
    t.channelsSound = true := by
  rw [State.channelsSound_iff] at *
  cases h
  case addEntry u e hjoined hroom ho htag huid hanswers =>
    rcases s.makeRoom_cases with ⟨_, h⟩ | ⟨_, _, _, _, _, h⟩ | ⟨_, _, h⟩ <;> rw [h] at hroom <;> cases hroom <;> exact hs
  case leaveEnded =>
    rcases s.leaveEnded_cases with e | ⟨-, -, e⟩ | ⟨-, -, e⟩ <;> rw [e] <;> exact hs
  case chans v hv => exact fun i => hv i (hs i)
  case start image hr hl =>
    rw [State.startListening_eq]
    intro i
    rw [Four.get_build]
    exact Channel.start_sound _ _ _ _
  all_goals exact hs

theorem channelsSound_kept {s t : State} (h : step s = .next t) (hs : s.channelsSound = true) :
    t.channelsSound = true := by
  refine step_keeps_of_update (P := fun s => s.channelsSound = true) ?_ ?_ ?_ Update.channelsSound ?_ ?_ ?_ h hs
  · exact fun s q hs => hs
  · intro s dt hs; simpa [State.channelsSound_iff] using hs
  · exact fun s hs => hs
  · exact fun s k _ _ => rfl
  · exact fun s h x _ hs => hs
  · intro s h straps normal hh hs
    rw [State.resetRelease_eq hh]; exact hs

/-! ### The spacing of the samples (R50, R52, R54) -/

/-- The sample times of a channel's ring, oldest first. -/
def State.times (s : State) (i : Chan) : List Time := (s.hist.rings.get i).map Sample.time

/-- R52, R54: what `State.spacingSound` says, clause by clause. -/
structure State.Spaced (s : State) : Prop where
  off : ∀ i, s.active i = false → s.times i = []
  last : ∀ i, s.active i = true → (s.times i).getLast? = s.hist.newest
  same : ∀ i j, s.active i = true → s.active j = true → s.times i = s.times j
  apart : ∀ i, (s.times i).IsChain fun a b => b = addTicks a s.image.samplePeriod
  next : ∀ t, s.hist.newest = some t → s.hist.nextInstant = some (addTicks t s.image.samplePeriod)
  begun : (s.ctrl.hold = none ∧ s.ctrl.lifecycle ≠ .loading) ∨ (s.hist.newest = none ∧ ∀ i, s.times i = [])

theorem zip_tail_all_iff {α : Type} [BEq α] [LawfulBEq α] (f : α → α) (l : List α) :
    ((l.zip l.tail).all fun p => p.2 == f p.1) = true ↔ l.IsChain fun a b => b = f a := by
  induction l with
  | nil => simp
  | cons a rest ih =>
    cases rest with
    | nil => simp
    | cons b rest =>
      rw [List.isChain_cons_cons, ← ih]
      simp

theorem State.spacingSound_iff (s : State) : s.spacingSound = true ↔ s.Spaced := by
  have hrings : (∀ i : Chan, (s.hist.rings.get i).isEmpty = true) ↔ ∀ i, s.times i = [] := by
    simp [State.times]
  have key : s.spacingSound = true ↔
      (∀ i, (s.active i = true ∨ s.times i = []) ∧ (s.active i = false ∨ (s.times i).getLast? = s.hist.newest) ∧
        (∀ j, (s.active i = false ∨ s.active j = false) ∨ s.times i = s.times j) ∧
        (s.times i).IsChain fun a b => b = addTicks a s.image.samplePeriod) ∧
      (∀ t, s.hist.newest = some t → s.hist.nextInstant = some (addTicks t s.image.samplePeriod)) ∧
      ((s.ctrl.hold = none ∧ s.ctrl.lifecycle ≠ .loading) ∨ (s.hist.newest = none ∧ ∀ i, s.times i = [])) := by
    simp only [← zip_tail_all_iff (fun a => addTicks a s.image.samplePeriod), ← hrings]
    cases hnewest : s.hist.newest <;>
      simp [State.spacingSound, State.times, mem_four, and_assoc, State.released, hnewest]
  rw [key]
  constructor
  · rintro ⟨h, hnext, hbegun⟩
    exact ⟨fun i hi => (h i).1.resolve_left (by simp [hi]), fun i hi => (h i).2.1.resolve_left (by simp [hi]),
      fun i j hi hj => ((h i).2.2.1 j).resolve_left (by simp [hi, hj]), fun i => (h i).2.2.2, hnext, hbegun⟩
  · rintro ⟨hoff, hlast, hsame, hapart, hnext, hbegun⟩
    refine ⟨fun i => ⟨?_, ?_, fun j => ?_, hapart i⟩, hnext, hbegun⟩
    · cases hi : s.active i <;> simp [hoff, hi]
    · cases hi : s.active i <;> simp [hlast, hi]
    · cases hi : s.active i <;> cases hj : s.active j <;> simp
      exact hsame i j hi hj

/-- Spacing asks for the image, the rings and the instants, and that the lifecycle does not return to LOADING. -/
theorem State.Spaced.of_same {s t : State} (h : s.Spaced) (himage : t.image = s.image) (hrings : t.hist.rings = s.hist.rings)
    (hnewest : t.hist.newest = s.hist.newest) (hnext : t.hist.nextInstant = s.hist.nextInstant)
    (hhold : t.ctrl.hold = s.ctrl.hold) (hl : s.ctrl.lifecycle ≠ .loading → t.ctrl.lifecycle ≠ .loading) : t.Spaced := by
  have hactive : ∀ i, t.active i = s.active i := fun i => by simp [State.active, himage]
  have htimes : ∀ i, t.times i = s.times i := fun i => by simp [State.times, hrings]
  obtain ⟨h1, h2, h3, h4, h5, h6⟩ := h
  refine ⟨?_, ?_, ?_, ?_, ?_, ?_⟩ <;> simp only [hactive, htimes, himage, hnewest, hnext, hhold]
  · exact h1
  · exact h2
  · exact h3
  · exact h4
  · exact h5
  · exact h6.imp_left fun h => ⟨h.1, hl h.2⟩

/-- With no sample anywhere the spacing holds whatever the image says. -/
theorem State.Spaced.of_empty {t : State} (hnewest : t.hist.newest = none) (htimes : ∀ i, t.times i = []) : t.Spaced :=
  ⟨fun i _ => htimes i, fun i _ => by simp [htimes, hnewest], fun i j _ _ => by simp [htimes],
    fun i => by simp [htimes], fun t h => by simp [hnewest] at h, .inr ⟨hnewest, htimes⟩⟩

theorem map_time_pushSample (ring : List Sample) (x : Sample) :
    (pushSample ring x).map Sample.time =
      (if Config.ringSize ≤ (ring.map Sample.time).length
        then (ring.map Sample.time).drop ((ring.map Sample.time).length + 1 - Config.ringSize)
        else ring.map Sample.time) ++ [x.time] := by
  unfold pushSample
  rw [List.length_map]
  split <;> simp [List.map_drop]

/-- R52, R54: a sample at the next instant keeps the ring's samples one period apart. -/
theorem isChain_push {period : Nat} {times : List Time} {t : Time} (k : Nat)
    (h : times.IsChain fun a b => b = addTicks a period) (hlast : ∀ x, times.getLast? = some x → t = addTicks x period) :
    (times.drop k ++ [t]).IsChain fun a b => b = addTicks a period := by
  rw [List.isChain_append]
  refine ⟨h.drop k, by simp, fun x hx y hy => ?_⟩
  obtain rfl : t = y := by simpa using hy
  refine hlast x ?_
  rw [Option.mem_def, List.getLast?_drop] at hx
  split at hx
  · cases hx
  · exact hx

theorem State.Spaced.appendSamples {s : State} {t : Time} (h : s.Spaced) (hr : s.running = true)
    (ht : s.hist.nextInstant = some t) : (s.appendSamples t).Spaced := by
  have hactive : ∀ i, (s.appendSamples t).active i = s.active i := fun i => rfl
  have hidle : ∀ i, s.active i = false → (s.appendSamples t).times i = s.times i := fun i hi => by
    simp [State.times, State.appendSamples, hi]
  have htaken : ∀ i, s.active i = true → (s.appendSamples t).times i =
      (if Config.ringSize ≤ (s.times i).length then (s.times i).drop ((s.times i).length + 1 - Config.ringSize)
        else s.times i) ++ [t] := fun i hi => by
    simp only [State.times, State.appendSamples, Four.get_build, hi, if_true, map_time_pushSample]
    rfl
  refine ⟨fun i hi => ?_, fun i hi => ?_, fun i j hi hj => ?_, fun i => ?_, fun x hx => ?_, ?_⟩
  · rw [hactive] at hi
    rw [hidle i hi]; exact h.off i hi
  · rw [hactive] at hi
    rw [htaken i hi]; simp [State.appendSamples]
  · rw [hactive] at hi hj
    rw [htaken i hi, htaken j hj, h.same i j hi hj]
  · cases hi : s.active i with
    | false => rw [hidle i hi]; exact h.apart i
    | true =>
      have hlast : ∀ x, (s.times i).getLast? = some x → t = addTicks x s.image.samplePeriod := fun x hx => by
        have := h.next x ((h.last i hi).symm.trans hx)
        exact Option.some.inj (ht.symm.trans this)
      rw [htaken i hi]
      split
      · exact isChain_push _ (h.apart i) hlast
      · simpa using isChain_push 0 (h.apart i) hlast
  · cases hx; rfl
  · exact .inl ⟨((s.running_iff).mp hr).1, ((s.running_iff).mp hr).2.1⟩

theorem Update.spaced {round : Prop} {s t : State} (h : Update round s t) (hs : s.Spaced) : t.Spaced := by
  have hempty : s.ctrl.lifecycle = .loading → s.hist.newest = none ∧ ∀ i, s.times i = [] := fun hl =>
    hs.begun.resolve_left fun h => h.2 hl
  cases h
  case addEntry u e hjoined hroom ho htag huid hanswers =>
    rcases s.makeRoom_cases with ⟨_, h⟩ | ⟨_, _, _, _, _, h⟩ | ⟨_, _, h⟩ <;> rw [h] at hroom <;> cases hroom <;>
      exact hs.of_same rfl rfl rfl rfl rfl id
  case leaveEnded =>
    rcases s.leaveEnded_cases with e | ⟨-, -, e⟩ | ⟨-, -, e⟩ <;> rw [e]
    · exact hs
    all_goals exact hs.of_same rfl rfl rfl rfl rfl (fun _ => by simp [State.listenAgain])
  case withdraw m hl => exact hs.of_same rfl rfl rfl rfl rfl (fun _ => by simp)
  case listenAgain hl hm => exact hs.of_same rfl rfl rfl rfl rfl (fun _ => by simp [State.listenAgain])
  case mute timer hl => exact hs.of_same rfl rfl rfl rfl rfl (fun _ => by simp)
  case leaveJoined l m hj hl =>
    exact hs.of_same rfl rfl rfl rfl rfl (fun _ => by rcases hl with rfl | rfl <;> simp)
  case halt reason hr hl => exact hs.of_same rfl rfl rfl rfl rfl (fun _ => by simp [State.halt])
  case start image hr hl =>
    rw [State.startListening_eq]
    exact State.Spaced.of_empty (hempty hl).1 (hempty hl).2
  case join hr hl => exact hs.of_same rfl rfl rfl rfl rfl (fun _ => by simp)
  case appendSamples t hr ht => exact hs.appendSamples hr ht
  all_goals exact hs.of_same rfl rfl rfl rfl rfl id

theorem spacingSound_kept {s t : State} (h : step s = .next t) (hs : s.spacingSound = true) : t.spacingSound = true := by
  rw [State.spacingSound_iff] at *
  refine step_keeps_of_update (P := State.Spaced) ?_ ?_ ?_ Update.spaced ?_ ?_ ?_ h hs
  · exact fun s q hs => hs.of_same rfl rfl rfl rfl rfl id
  · exact fun s dt hs => hs.of_same (by simp) (by simp) (by simp) (by simp) (by simp) (by simp)
  · exact fun s hs => hs.of_same rfl rfl rfl rfl rfl id
  · exact fun s k _ _ => (State.spacingSound_iff _).mp rfl
  · intro s h x hh hs
    have hempty := hs.begun.resolve_left fun h => by simp [hh] at h
    exact State.Spaced.of_empty hempty.1 hempty.2
  · intro s h straps normal hh hs
    have hempty := hs.begun.resolve_left fun h => by simp [hh] at h
    rw [State.resetRelease_eq hh]
    exact State.Spaced.of_empty hempty.1 hempty.2

end Sys2Proof.Machine

namespace Sys2Proof

-- one declaration after the other: fewer threads at a time
set_option Elab.async false

open Machine

/-- Settles O60: each bound and agreement is kept by every update an effect is composed of. -/
theorem tablesAndChannelsKept : Obligations.TablesAndChannelsKept := fun _ _ h =>
  ⟨tableSound_kept h, uidsSound_kept h, answersSound_kept h, peersSound_kept h, presetsSound_kept h, ringsSound_kept h,
    spacingSound_kept h, channelsSound_kept h⟩

end Sys2Proof

/-!
PROOFS. The reset hold (R163 to R165), step by step and command by command, and what follows of every command at once: the
waiting commands, local time (R70), the correction (R71) and the states left only by a reset (R169, R177).
-/

namespace Sys2Proof.Machine

-- one declaration after the other: fewer threads at a time
set_option Elab.async false

/-! ### A state in a reset hold -/

/-- While a hold stands a sound state is `State.held`. -/
theorem State.held_of_sound {s : State} {h : Hold} (hh : s.ctrl.hold = some h) (hs : s.holdSound = true) :
    s = State.held h s.ctrl.resetCause s.pins s.pending := by
  simp only [State.holdSound, hh, State.blocksAtReset, Bool.and_eq_true, decide_eq_true_eq] at hs
  obtain ⟨⟨himage, htime, hchans, hhist, htrig, hcap, hlink, hreq⟩, hctrl⟩ := hs
  obtain ⟨pins, image, ctrl, time, chans, hist, trig, cap, link, req, pending⟩ := s
  exact State.mk.injEq .. ▸ ⟨rfl, himage, hctrl, htime, hchans, hhist, htrig, hcap, hlink, hreq, rfl⟩

theorem State.held_sound (h : Hold) (cause : ResetCause) (pins : Pins) (q : List Instr) :
    (State.held h cause pins q).holdSound = true := by
  simp [State.holdSound, State.held, Controller.held, State.blocksAtReset]

theorem State.held_settle (h : Hold) (cause : ResetCause) (pins : Pins) (q : List Instr) :
    (State.held h cause pins q).settle = State.held h cause pins q := State.settle_of_sound rfl

/-- R163: in a hold no event comes about: a command changes the pins or the hold at most, or it is the release. -/
theorem effect_held (c : Instr) (h : Hold) (cause : ResetCause) (pins : Pins) (q : List Instr) :
    (∃ pins', effect c (State.held h cause pins q) = State.held h cause pins' q) ∨
    (∃ x, effect c (State.held h cause pins q) = State.held (h.extend x) cause pins q) ∨
    ∃ dt straps normal, c = .resetRelease dt straps normal := by
  have hchan : ∀ i, (State.held h cause pins q).chans.get i = Channel.reset := fun i => Four.get_all _ i
  cases c
  case powerOnReset => exact .inr (.inl ⟨.below150, rfl⟩)
  case supplyLowReset => exact .inr (.inl ⟨.below270, rfl⟩)
  case pinReset => exact .inr (.inl ⟨.nrstLow, rfl⟩)
  case furtherResetCondition dt x => exact .inr (.inl ⟨x, rfl⟩)
  case resetRelease dt straps normal => exact .inr (.inr ⟨dt, straps, normal, rfl⟩)
  all_goals refine .inl ?_
  case autoAckTimerExpiry dt i => exact ⟨pins, by simp [effect, State.autoAck, State.autoAckDue, hchan, Channel.reset]⟩
  case lineCauseAppears dt i n =>
    simp only [effect, State.causeAppears]
    split <;> exact ⟨_, rfl⟩
  case lineCauseDisappears dt i n =>
    simp only [effect, State.causeDisappears]
    split <;> exact ⟨_, rfl⟩
  case digitalInputRawChange dt i level =>
    simp only [effect, State.rawChange]
    split <;> exact ⟨_, rfl⟩
  case filteredInputChange dt i first =>
    refine ⟨pins, ?_⟩
    simp [effect, State.filteredChange, State.endedRun, State.held, Trigger.reset]
  case holdoffExpiry dt i =>
    exact ⟨pins, by simp [effect, State.holdoffExpiry, State.holdoffDue, State.held, Trigger.reset, Term.reset]⟩
  case strobePulseEnd dt j =>
    refine ⟨pins, ?_⟩
    simp only [effect, State.strobePulseEnd, State.strobe, State.held, Capture.reset]
    split <;> rfl
  all_goals exact ⟨_, rfl⟩

theorem State.resetRelease_hold {s : State} (straps : Ident) (normal : Bool) :
    (s.resetRelease straps normal).ctrl.hold = none := by
  cases hh : s.ctrl.hold with
  | none => simp only [State.resetRelease, hh]
  | some h => rw [State.resetRelease_eq hh]; rfl

theorem State.holdSound_of_none {s : State} (h : s.ctrl.hold = none) : s.holdSound = true := by
  simp [State.holdSound, h]

theorem effect_holdSound {c : Instr} {s : State} (hs : s.holdSound = true) : (effect c s).settle.holdSound = true := by
  cases hh : s.ctrl.hold with
  | none =>
    rcases effect_cases c s with hrow | ⟨k, -, e, -⟩ | ⟨x, y, hx, -⟩ | ⟨x, dt, straps, normal, hx, -⟩
    · exact State.holdSound_of_none (by simpa using hrow.sameClock.hold.trans hh)
    · rw [e, State.beginHold, State.held_settle]
      exact State.held_sound ..
    · rw [hh] at hx; cases hx
    · rw [hh] at hx; cases hx
  | some h =>
    rw [State.held_of_sound hh hs]
    rcases effect_held c h s.ctrl.resetCause s.pins s.pending with ⟨p, e⟩ | ⟨x, e⟩ | ⟨dt, straps, normal, rfl⟩
    · rw [e, State.held_settle]; exact State.held_sound ..
    · rw [e, State.held_settle]; exact State.held_sound ..
    · exact State.holdSound_of_none (State.resetRelease_hold ..)

theorem holdSound_kept {s t : State} (h : step s = .next t) (hs : s.holdSound = true) : t.holdSound = true := by
  have hwaiting : ∀ (u : State) q, u.holdSound = true → (u.withPending q).holdSound = true := fun _ _ h => h
  have hlapse : ∀ (u : State) dt, u.holdSound = true → (u.elapse dt).holdSound = true := by
    intro u dt hu
    cases hh : u.ctrl.hold with
    | none => exact State.holdSound_of_none (by simpa using hh)
    | some x => rwa [State.elapse_held dt hh]
  have hexec : ∀ c (u : State), u.holdSound = true → exec c u = .next t → t.holdSound = true := by
    intro c u hu he
    rw [exec_eq_next_iff.mp he]
    exact effect_holdSound (hlapse u _ hu)
  rcases step_cases h with ⟨c, rest, -, he⟩ | ⟨c, -, -, he⟩ | ⟨-, -, rfl⟩
  · exact hexec c _ (hwaiting _ _ hs) he
  · exact hexec c s hs he
  · exact hlapse _ _ hs

/-! ### What a command leaves alone -/

/-- R70: out of reset, only a reset sets the clock. -/
theorem effect_sameClock {c : Instr} {s : State} (hh : s.ctrl.hold = none) (hpower : ∀ dt, c ≠ .powerOnReset dt)
    (hsupply : ∀ dt, c ≠ .supplyLowReset dt) (hpin : ∀ dt, c ≠ .pinReset dt) :
    SameClock (isRound c) s (effect c s) := by
  rcases effect_cases c s with hrow | ⟨k, -, -, dt, rfl | rfl | rfl⟩ | ⟨x, y, hx, -⟩ | ⟨x, dt, straps, normal, hx, -⟩
  · exact hrow.sameClock
  · exact absurd rfl (hpower dt)
  · exact absurd rfl (hsupply dt)
  · exact absurd rfl (hpin dt)
  · rw [hh] at hx; cases hx
  · rw [hh] at hx; cases hx

/-- R70: in a hold, only the release sets local time. -/
theorem effect_time_of_held {c : Instr} {s : State} {h : Hold} (hh : s.ctrl.hold = some h)
    (hrelease : ∀ dt straps normal, c ≠ .resetRelease dt straps normal) :
    (effect c s).time.localTime = s.time.localTime ∧ (effect c s).time.phase = s.time.phase := by
  rcases effect_cases c s with hrow | ⟨k, hx, -⟩ | ⟨x, y, -, e⟩ | ⟨x, dt, straps, normal, -, rfl⟩
  · exact ⟨hrow.sameClock.localTime, hrow.sameClock.phase⟩
  · rw [hh] at hx; cases hx
  · rw [e]; exact ⟨rfl, rfl⟩
  · exact absurd rfl (hrelease dt straps normal)

/-- R169, R177: HALTED or MUTED. -/
def State.stopped (s : State) : Prop := s.ctrl.lifecycle = .halted ∨ s.ctrl.lifecycle = .muted

theorem Update.stopped {round : Prop} {s t : State} (h : Update round s t) (hs : s.stopped) :
    t.ctrl.lifecycle = s.ctrl.lifecycle := by
  unfold State.stopped at hs
  cases h
  case addEntry u e hjoined hroom ho htag huid hanswers =>
    rcases s.makeRoom_cases with ⟨_, h⟩ | ⟨_, _, _, _, _, h⟩ | ⟨_, _, h⟩ <;> rw [h] at hroom <;> cases hroom <;> rfl
  case leaveEnded => rw [State.leaveEnded_of_ne (by rcases hs with h | h <;> simp [h])]
  case leaveJoined l m hj hl => rcases hs with h | h <;> simp [State.joined, h] at hj
  case withdraw m hl | listenAgain hl hm | halt reason hr hl | start image hr hl | join hr hl =>
    rcases hs with h | h <;> simp [h] at hl
  case mute timer hl => rcases hs with h | h <;> simp [h] at hl
  all_goals rfl

theorem Updates.stopped {round : Prop} {s t : State} (h : Updates round s t) (hs : s.stopped) :
    t.ctrl.lifecycle = s.ctrl.lifecycle := by
  induction h with
  | refl => rfl
  | tail _ hstep ih => exact (hstep.stopped (by unfold State.stopped at *; rwa [ih])).trans ih

/-! ### The reset commands -/

/-- A command in a sound hold. -/
theorem exec_held {s : State} {h : Hold} (hh : s.ctrl.hold = some h) (hs : s.holdSound = true) (c : Instr) :
    exec c s = .next (effect c (State.held h s.ctrl.resetCause s.pins s.pending)).settle := by
  rw [exec_eq_effect, State.elapse_held _ hh, ← State.held_of_sound hh hs]

/-- R163: a further condition extends a standing hold. -/
theorem exec_extend {s : State} {h : Hold} (hh : s.ctrl.hold = some h) (hs : s.holdSound = true) {c : Instr}
    (x : ResetCondition) (hc : ∀ q, effect c (State.held h s.ctrl.resetCause s.pins q) =
      State.held (h.extend x) s.ctrl.resetCause s.pins q) :
    exec c s = .next (s.withHold (h.extend x)) := by
  rw [exec_held hh hs, hc, State.held_settle]
  have := State.held_of_sound hh hs
  rw [this]
  rfl

/-- R163: out of reset a reset begins a hold of its kind. -/
theorem exec_begin {s : State} (hh : s.ctrl.hold = none) {c : Instr} {k : ResetKind} {x : ResetCondition}
    (hc : ∀ u, effect c u = u.resetCondition k x) :
    exec c s = .next (State.held ⟨k, false, false⟩ s.ctrl.resetCause s.pins s.pending) := by
  have hu : (s.elapse c.elapsed).ctrl.hold = none := by simpa using hh
  rw [exec_eq_effect, hc, State.resetCondition, hu]
  simp [State.beginHold, State.held_settle]

/-- What a further condition adds to the lowest the supply has been. -/
theorem Hold.extend_eq (h : Hold) (x : ResetCondition) :
    h.extend x = ⟨h.begun, h.below270 || decide (x = .below270) || decide (x = .below150),
      h.below150 || decide (x = .below150)⟩ := by
  cases x <;> simp [Hold.extend]

/-- R163: the hold after every further condition of a list. -/
theorem Hold.foldl_extend (h : Hold) (l : List ResetCondition) :
    l.foldl Hold.extend h = ⟨h.begun, h.below270 || decide (.below270 ∈ l) || decide (.below150 ∈ l),
      h.below150 || decide (.below150 ∈ l)⟩ := by
  induction l generalizing h with
  | nil => simp
  | cons x rest ih =>
    rw [List.foldl_cons, ih, Hold.extend_eq]
    cases x <;> simp [Bool.or_comm, Bool.or_left_comm]

/-- R163: a hold, every further condition of a list, and the release. -/
theorem runAll_hold (h : Hold) (cause : ResetCause) (pins : Pins) (q : List Instr) (dt : Lapse) (straps : Ident)
    (normal : Bool) (conditions : List (Lapse × ResetCondition)) :
    ∃ t, runAll (conditions.map (fun x => Instr.furtherResetCondition x.1 x.2) ++ [.resetRelease dt straps normal])
        (State.held h cause pins q) = .next t ∧ t.ctrl.hold = none ∧
      t.ctrl.resetCause = ((conditions.map Prod.snd).foldl Hold.extend h).cause := by
  induction conditions generalizing h with
  | nil =>
    refine ⟨_, rfl, State.resetRelease_hold .., ?_⟩
    show ((State.held h cause pins q).resetRelease straps normal).ctrl.resetCause = h.cause
    rw [State.resetRelease_eq rfl]
    rfl
  | cons x rest ih =>
    obtain ⟨t, ht, hhold, hcause⟩ := ih (h.extend x.2)
    refine ⟨t, ?_, hhold, hcause⟩
    rw [← ht, List.map_cons, List.cons_append]
    rw [runAll, exec_extend (s := State.held h cause pins q) rfl (State.held_sound ..) x.2 fun _ => rfl]
    rfl

end Sys2Proof.Machine

namespace Sys2Proof

-- one declaration after the other: fewer threads at a time
set_option Elab.async false
open Machine

/-- Settles O10: a standing hold's state is `State.held`, which every command but the release keeps (`effect_held`). -/
theorem holdKeepsResetValues : Obligations.HoldKeepsResetValues := fun _ _ hs h => holdSound_kept h hs

/-- Settles O1, from the definition of a step. -/
theorem stepTakesFrontOrIdles : Obligations.StepTakesFrontOrIdles := by
  refine ⟨fun c rest s h => ?_, fun s hp hd => ?_, fun c rest s hp hd => ?_⟩
  · simp [step, h, State.withPending]
  · simp [step, idle, hp, hd, after]
  · simp [step, idle, hp, hd]

/-- Settles O2: no effect touches the waiting commands. -/
theorem everyCommandCompletes : Obligations.EveryCommandCompletes := by
  intro c s
  refine ⟨_, exec_eq_effect c s, ?_⟩
  rw [State.settle_pending]
  rcases effect_cases c (s.elapse c.elapsed) with hrow | ⟨k, -, e, -⟩ | ⟨h, x, -, e⟩ | ⟨h, dt, straps, normal, hh, rfl⟩
  · simpa using hrow.sameClock.pending
  · rw [e]; simp [State.beginHold, State.held]
  · rw [e]; simp [State.withHold]
  · simp [effect, State.resetRelease_eq hh]

/-- Settles O6, by evaluation of the state after a reset. -/
theorem resetValues : Obligations.ResetValues := by
  unfold Obligations.ResetValues
  decide

/-- Settles O4: outside a reset and the release only the lapse moves local time, and it stands in a hold. -/
theorem localTimeOnlyCounts : Obligations.LocalTimeOnlyCounts := by
  intro c s t h
  have htime : t.time = (effect c (s.elapse c.elapsed)).time := by rw [exec_eq_next_iff.mp h, State.settle_time]
  have hbegin : s.ctrl.hold = none → ∀ k x, (∀ u, effect c u = u.resetCondition k x) →
      t.time.localTime = 0 ∧ t.time.phase = 0 := by
    intro hh k x hc
    rw [exec_begin hh hc] at h
    cases h
    exact ⟨rfl, rfl⟩
  split
  case h_1 hh => exact hbegin hh _ _ fun _ => rfl
  case h_2 hh => exact hbegin hh _ _ fun _ => rfl
  case h_3 hh => exact hbegin hh _ _ fun _ => rfl
  case h_4 hh =>
    rw [htime, State.elapse_held _ hh, effect, State.resetRelease_eq hh]
    exact ⟨rfl, rfl⟩
  case h_5 c _ _ _ hrelease hh =>
    obtain ⟨hlocal, hphase⟩ := effect_time_of_held hh hrelease
    rw [htime, State.elapse_held _ hh]
    exact ⟨hlocal, hphase⟩
  case h_6 c _ _ hpower hsupply hpin hh =>
    have hclock := effect_sameClock (s := s.elapse c.elapsed) (by simpa using hh)
      hpower hsupply hpin
    rw [htime, hclock.localTime, hclock.phase, State.elapse_released _ hh]
    exact ⟨by simp [TimeUnit.tick, addTicks], rfl⟩

/-- Settles O5: outside a reset the correction changes in the updates of a round alone. -/
theorem correctionChangesOnlyAtRounds : Obligations.CorrectionChangesOnlyAtRounds := by
  intro c s t h hne
  rw [exec_eq_next_iff.mp h, State.settle_time] at hne
  rcases effect_cases c (s.elapse c.elapsed) with hrow | ⟨k, hh, -, dt, hc⟩ | ⟨x, y, hh, e⟩ | ⟨x, dt, straps, normal, hh, rfl⟩
  · have hround : isRound c := hrow.sameClock.correction.resolve_right fun e => hne (by simpa using e)
    exact hround.imp_right .inl
  · exact .inr (.inr ⟨⟨dt, hc⟩, by simpa using hh⟩)
  · exact absurd (by rw [e]; simp [State.withHold]) hne
  · exact absurd (by simp [effect, State.resetRelease_eq hh]) hne

/-- Settles O7, by the beginning and the extension of a hold. -/
theorem resetsBeginOrExtendHold : Obligations.ResetsBeginOrExtendHold := by
  intro dt s
  refine ⟨fun hh => ?_, fun h hh hs => ?_⟩
  · have hbegin : ∀ c k x, (∀ u, effect c u = u.resetCondition k x) →
        ∃ t, exec c s = .next t ∧ t.blocksAtReset = true ∧ t.ctrl.hold = some ⟨k, false, false⟩ ∧
          t.ctrl.resetCause = s.ctrl.resetCause ∧ t.ctrl.syncLine = false ∧ t.ctrl.faultLine = false ∧
          t.pins = s.pins ∧ t.pending = s.pending := fun c k x hc =>
      ⟨_, exec_begin hh hc, by simp [State.blocksAtReset, State.held], rfl, rfl, rfl, rfl, rfl, rfl⟩
    simp only [List.mem_cons, List.not_mem_nil, or_false, forall_eq_or_imp, forall_eq]
    exact ⟨hbegin _ _ .below150 fun _ => rfl, hbegin _ _ .below270 fun _ => rfl, hbegin _ _ .nrstLow fun _ => rfl⟩
  · have hextend : ∀ c x, (∀ q, effect c (State.held h s.ctrl.resetCause s.pins q) =
        State.held (h.extend x) s.ctrl.resetCause s.pins q) → exec c s = .next (s.withHold (h.extend x)) :=
      fun c x hc => exec_extend hh hs x hc
    simp only [List.mem_cons, List.not_mem_nil, or_false, forall_eq_or_imp, forall_eq]
    exact ⟨hextend _ .below150 fun _ => rfl, hextend _ .below270 fun _ => rfl, hextend _ .nrstLow fun _ => rfl,
      hextend _ .below150 fun _ => rfl, hextend _ .below270 fun _ => rfl, hextend _ .nrstLow fun _ => rfl⟩

/-- Settles O8: the hold is extended condition by condition (`runAll_hold`), and its cause is read at the release. -/
theorem resetCauseRecorded : Obligations.ResetCauseRecorded := by
  intro dt dt' s conditions straps normal hh
  have hrun : ∀ c k x, (∀ u, effect c u = u.resetCondition k x) →
      ∃ t, runAll (c :: conditions.map (fun x => Instr.furtherResetCondition x.1 x.2) ++
          [.resetRelease dt' straps normal]) s = .next t ∧ t.ctrl.hold = none ∧
        t.ctrl.resetCause =
          if k = .powerOn ∨ .below150 ∈ conditions.map Prod.snd then .power
          else if k = .supplyLow ∨ .below270 ∈ conditions.map Prod.snd then .supply
          else .pin := by
    intro c k x hc
    obtain ⟨t, ht, hhold, hcause⟩ :=
      runAll_hold ⟨k, false, false⟩ s.ctrl.resetCause s.pins s.pending dt' straps normal conditions
    refine ⟨t, ?_, hhold, ?_⟩
    · rw [List.cons_append, runAll, exec_begin hh hc]
      exact ht
    · rw [hcause, Hold.foldl_extend]
      cases k <;> by_cases h150 : ResetCondition.below150 ∈ conditions.map Prod.snd <;>
        by_cases h270 : ResetCondition.below270 ∈ conditions.map Prod.snd <;> simp [Hold.cause, h150, h270]
  intro p hp
  simp only [List.mem_cons, List.not_mem_nil, or_false] at hp
  rcases hp with rfl | rfl | rfl
  · exact hrun _ _ .below150 fun _ => rfl
  · exact hrun _ _ .below270 fun _ => rfl
  · exact hrun _ _ .nrstLow fun _ => rfl

/-- Settles O9: the release of `State.held`, field by field. -/
theorem releaseEntersLoading : Obligations.ReleaseEntersLoading := by
  intro dt straps normal s h hh hs
  refine ⟨_, exec_held hh hs _, ?_⟩
  rw [effect, State.resetRelease_eq rfl]
  by_cases hstraps : straps = 0
  · simp only [hstraps, if_true]
    exact ⟨rfl, rfl, rfl, rfl, rfl, rfl, rfl, rfl, rfl, rfl, rfl, rfl⟩
  · simp only [hstraps, if_false]
    exact ⟨rfl, rfl, rfl, rfl, rfl, rfl, rfl, rfl, rfl, rfl, rfl, rfl⟩

/-- Settles O17: HALTED and MUTED are left by none of the updates (`Update.stopped`). -/
theorem haltedAndMutedLeftOnlyByReset : Obligations.HaltedAndMutedLeftOnlyByReset := by
  intro c s t h hh hl
  rw [exec_eq_next_iff.mp h, State.settle_lifecycle, State.settle_hold]
  have hstopped : (s.elapse c.elapsed).stopped := by simpa [State.stopped] using hl
  rcases effect_cases c (s.elapse c.elapsed) with hrow | ⟨k, -, -, dt, hc⟩ | ⟨x, y, hx, -⟩ | ⟨x, dt, straps, normal, hx, -⟩
  · exact .inl ⟨by simpa using hrow.stopped hstopped, by simpa [hh] using hrow.sameClock.hold⟩
  · exact .inr ⟨dt, hc⟩
  · simp [hh] at hx
  · simp [hh] at hx

end Sys2Proof

/-!
PROOFS. The transmit queue act by act: never more frames than it has places, in order of class and age, every age its own
(R142).
-/

namespace Sys2Proof.Machine

-- one declaration after the other: fewer threads at a time
set_option Elab.async false

/-! ### From the acts to the step -/

/-- What every act keeps, and the beginning, extension and release of a hold, every step keeps, where the lapse and the
settling step leave it alone. -/
theorem step_keeps_of_act {P : State → Prop} (hwaiting : ∀ s q, P s → P (s.withPending q))
    (hlapse : ∀ s dt, P s → P (s.elapse dt)) (hsettle : ∀ s, P s → P s.settle)
    (hact : ∀ {round : Prop} {s t : State}, Act round s t → P s → P t)
    (hbegin : ∀ s k, s.ctrl.hold = none → P s → P (s.beginHold k))
    (hextend : ∀ s h x, s.ctrl.hold = some h → P s → P (s.withHold (h.extend x)))
    (hrelease : ∀ s h straps normal, s.ctrl.hold = some h → P s → P (s.resetRelease straps normal))
    {s t : State} (h : step s = .next t) (hs : P s) : P t := by
  refine step_keeps hwaiting hlapse (fun c u hu => ?_) hsettle h hs
  rcases effect_acts c u with hrow | ⟨k, hh, e, -⟩ | ⟨x, y, hh, e⟩ | ⟨x, dt, straps, normal, hh, rfl⟩
  · exact hrow.keep (fun _ _ => hact) hu
  · exact e ▸ hbegin u k hh hu
  · exact e ▸ hextend u x y hh hu
  · exact hrelease u x straps normal hh hu

/-! ### Frames that leave -/

theorem LinkUnit.count_eq (l : LinkUnit) : l.count = l.frames.length := by
  unfold LinkUnit.count LinkUnit.frames
  cases l.flight <;> simp

/-- Frames may have left the link unit, and nothing else has changed of them. -/
structure LinkUnit.Shrunk (l l' : LinkUnit) : Prop where
  queue : l'.queue.Sublist l.queue
  flight : l'.flight.map Flight.frame = l.flight.map Flight.frame ∨ l'.flight = none
  nextAge : l'.nextAge = l.nextAge

theorem LinkUnit.Shrunk.refl (l : LinkUnit) : l.Shrunk l := ⟨.refl _, .inl rfl, rfl⟩

theorem LinkUnit.Shrunk.trans {l l' l'' : LinkUnit} (h : l.Shrunk l') (h' : l'.Shrunk l'') : l.Shrunk l'' := by
  refine ⟨h'.queue.trans h.queue, ?_, h'.nextAge.trans h.nextAge⟩
  rcases h'.flight with e' | e'
  · refine h.flight.imp e'.trans fun e => ?_
    rw [e] at e'
    simpa using e'
  · exact .inr e'

theorem LinkUnit.Shrunk.frames {l l' : LinkUnit} (h : l.Shrunk l') : l'.frames.Sublist l.frames := by
  unfold LinkUnit.frames
  rcases h.flight with e | e
  · rw [e]; exact .append_left h.queue _
  · rw [e]; exact .trans h.queue (List.sublist_append_right ..)

theorem LinkUnit.Shrunk.ordered {l l' : LinkUnit} (h : l.Shrunk l') (ho : l.Ordered) : l'.Ordered :=
  ⟨ho.sorted.sublist h.queue, ho.ages.sublist (h.frames.map _), fun f hf => h.nextAge ▸ ho.given f (h.frames.subset hf)⟩

theorem LinkUnit.Shrunk.count {l l' : LinkUnit} (h : l.Shrunk l') : l'.count ≤ l.count := by
  rw [LinkUnit.count_eq, LinkUnit.count_eq]
  exact h.frames.length_le

theorem LinkUnit.withdraw_shrunk (l : LinkUnit) (o : Owner) : l.Shrunk (l.withdraw o) := ⟨List.filter_sublist, .inl rfl, rfl⟩

theorem LinkUnit.withdrawCall_shrunk (l : LinkUnit) (o : Owner) : l.Shrunk (l.withdrawCall o) :=
  ⟨List.filter_sublist, .inl rfl, rfl⟩

theorem LinkUnit.remove_shrunk (l : LinkUnit) (age : Nat) : l.Shrunk (l.remove age) := ⟨List.filter_sublist, .inl rfl, rfl⟩

/-- R145: the outcome of a frame that is lost may withdraw the frames of its entry. -/
theorem State.lose_link (s : State) (f : QFrame) (o : Loss) :
    (s.lose f o).link = s.link ∨ ∃ uid, f.owner = .entry uid ∧ (s.lose f o).link = s.link.withdraw (.entry uid) := by
  have hcall : ∀ uid, (s.callLost uid).link = s.link ∨ (s.callLost uid).link = s.link.withdraw (.entry uid) := by
    intro uid
    unfold State.callLost
    split
    · exact .inl rfl
    · split <;> exact .inr rfl
  obtain ⟨owner, content, age, attempts, started⟩ := f
  cases owner with
  | entry uid =>
    cases content with
    | call c =>
      simp only [State.lose]
      split
      · exact .inl rfl
      · exact (hcall uid).imp_right fun h => ⟨uid, rfl, h⟩
    | close c =>
      simp only [State.lose]
      split
      · exact .inl rfl
      · exact .inr ⟨uid, rfl, rfl⟩
    | report c =>
      simp only [State.lose]
      split <;> exact .inl rfl
    | leave _ | beacon _ | reply _ _ => exact .inl rfl
  | declined tag | time | reply id => exact .inl rfl
  | controller =>
    simp only [State.lose]
    split
    · exact .inl rfl
    · rcases s.leaveEnded_cases with e | ⟨-, -, e⟩ | ⟨-, -, e⟩ <;> rw [e] <;> exact .inl rfl

theorem State.lose_shrunk (s : State) (f : QFrame) (o : Loss) : s.link.Shrunk (s.lose f o).link := by
  rcases s.lose_link f o with e | ⟨uid, -, e⟩ <;> rw [e]
  · exact .refl _
  · exact LinkUnit.withdraw_shrunk _ _

theorem State.foldl_lose_shrunk (s : State) (l : List QFrame) (o : Loss) :
    s.link.Shrunk (l.foldl (fun s f => s.lose f o) s).link := by
  induction l generalizing s with
  | nil => exact .refl s.link
  | cons f rest ih => exact (s.lose_shrunk f o).trans (ih _)

/-- R149: the link unit with its queue emptied, a frame on the wire left to finish. -/
def LinkUnit.flushed (l : LinkUnit) : LinkUnit :=
  { l with
    queue := []
    flight := l.flight.bind fun fl => if fl.onWire then some { fl with finishing := true } else none }

theorem LinkUnit.flushed_shrunk (l : LinkUnit) : l.Shrunk l.flushed := by
  refine ⟨List.nil_sublist _, ?_, rfl⟩
  unfold LinkUnit.flushed
  cases hf : l.flight with
  | none => exact .inr rfl
  | some fl => cases h : fl.onWire <;> simp [h]

/-- R149: the flush: the queue's frames are withdrawn, and a frame that awaits its retry has failed. -/
theorem State.flushLink_eq (s : State) :
    s.flushLink = match s.link.flight with
      | some fl =>
        if fl.onWire then s.link.queue.foldl (fun s f => s.lose f .withdrawn) (s.withLink s.link.flushed)
        else (s.link.queue.foldl (fun s f => s.lose f .withdrawn) (s.withLink s.link.flushed)).lose fl.frame .failed
      | none => s.link.queue.foldl (fun s f => s.lose f .withdrawn) (s.withLink s.link.flushed) := by
  unfold State.flushLink LinkUnit.flushed
  cases s.link.flight <;> rfl

theorem State.flushLink_shrunk (s : State) {l : LinkUnit} (hl : s.link = l) : l.Shrunk s.flushLink.link := by
  subst hl
  have hqueue : s.link.Shrunk (s.link.queue.foldl (fun s f => s.lose f .withdrawn) (s.withLink s.link.flushed)).link :=
    s.link.flushed_shrunk.trans (State.foldl_lose_shrunk (s.withLink s.link.flushed) _ _)
  rw [State.flushLink_eq]
  cases s.link.flight with
  | none => exact hqueue
  | some fl =>
    dsimp only
    split
    · exact hqueue
    · exact hqueue.trans (State.lose_shrunk _ _ _)

/-! ### Frames that come -/

theorem LinkUnit.enqueue_frames (l : LinkUnit) (o : Owner) (c : Content) :
    (l.enqueue o c).frames.Perm (⟨o, c, l.nextAge, 0, false⟩ :: l.frames) := by
  unfold LinkUnit.frames LinkUnit.enqueue
  exact ((insertFrame_perm _ _).append_left _).trans List.perm_middle

theorem LinkUnit.Ordered.enqueue {l : LinkUnit} (h : l.Ordered) (o : Owner) (c : Content) : (l.enqueue o c).Ordered := by
  have hnew : ∀ f ∈ l.frames, l.nextAge ≠ f.age := fun f hf => by have := h.given f hf; omega
  refine ⟨insertFrame_pairwise h.sorted fun g hg => hnew g (List.mem_append_right _ hg), ?_, fun f hf => ?_⟩
  · rw [((l.enqueue_frames o c).map _).nodup_iff, List.map_cons, List.nodup_cons]
    refine ⟨fun hmem => ?_, h.ages⟩
    obtain ⟨f, hf, he⟩ := List.mem_map.mp hmem
    exact hnew f hf he.symm
  · rcases List.mem_cons.mp ((l.enqueue_frames o c).subset hf) with rfl | hf
    · exact Nat.lt_succ_self _
    · exact Nat.lt_succ_of_lt (h.given f hf)

/-- The queue's frames are told apart by their ages. -/
theorem LinkUnit.Ordered.eq_of_age {l : LinkUnit} (h : l.Ordered) {f g : QFrame} (hf : f ∈ l.queue) (hg : g ∈ l.queue)
    (he : f.age = g.age) : f = g :=
  List.inj_on_of_nodup_map h.ages (List.mem_append_right _ hf) (List.mem_append_right _ hg) he

theorem LinkUnit.Ordered.queue_nodup {l : LinkUnit} (h : l.Ordered) : l.queue.Nodup :=
  (List.Nodup.of_map _ h.ages).sublist (List.sublist_append_right ..)

/-- Ages told apart, removing an age removes its frame. -/
theorem LinkUnit.Ordered.remove_frames {l : LinkUnit} (h : l.Ordered) {v : QFrame} (hv : v ∈ l.queue) :
    l.frames.Perm (v :: (l.remove v.age).frames) := by
  have hqueue : l.queue.Perm (v :: (l.remove v.age).queue) := by
    have herase : (l.remove v.age).queue = l.queue.erase v := by
      rw [h.queue_nodup.erase_eq_filter v]
      refine List.filter_congr fun f hf => ?_
      by_cases he : f = v
      · simp [he]
      · have hage : f.age ≠ v.age := fun ha => he (h.eq_of_age hf hv ha)
        exact (bne_iff_ne.mpr hage).trans (bne_iff_ne.mpr he).symm
    rw [herase]
    exact List.perm_cons_erase hv
  exact (hqueue.append_left _).trans List.perm_middle

theorem LinkUnit.Ordered.replace_queue {l : LinkUnit} (h : l.Ordered) {old : QFrame} (hold : old ∈ l.queue) (o : Owner)
    (c : Content) :
    (l.replace old o c).queue = l.queue.map fun f => if f = old then ⟨o, c, old.age, 0, false⟩ else f :=
  List.map_congr_left fun f hf => by
    by_cases he : f = old
    · simp [he]
    · have hage : f.age ≠ old.age := fun ha => he (h.eq_of_age hf hold ha)
      simp [he, hage]

/-- Ages told apart, a replacement takes the place of one frame. -/
theorem LinkUnit.Ordered.replace_frames {l : LinkUnit} (h : l.Ordered) {old : QFrame} (hold : old ∈ l.queue) (o : Owner)
    (c : Content) : (old :: (l.replace old o c).frames).Perm (⟨o, c, old.age, 0, false⟩ :: l.frames) := by
  have hqueue : (old :: (l.replace old o c).queue).Perm (⟨o, c, old.age, 0, false⟩ :: l.queue) := by
    rw [h.replace_queue hold]
    have hperm := List.perm_cons_erase hold
    have hrest : (l.queue.erase old).map (fun f => if f = old then ⟨o, c, old.age, 0, false⟩ else f) = l.queue.erase old :=
      (List.map_congr_left fun f hf => if_neg fun he => h.queue_nodup.not_mem_erase (he ▸ hf)).trans (List.map_id' _)
    refine .trans (.cons _ (hperm.map _)) ?_
    rw [List.map_cons, if_pos rfl, hrest]
    exact (List.Perm.swap ..).trans (.cons _ hperm.symm)
  exact List.perm_middle.symm.trans ((hqueue.append_left _).trans List.perm_middle)

/-- R143: a frame that another replaces is of the same kind. -/
theorem LinkUnit.predecessor_kind {l : LinkUnit} {c : Content} {old : QFrame} (h : l.predecessor c = some old) :
    old.content.kind = c.kind := by
  cases c <;> simp only [LinkUnit.predecessor, reduceCtorEq] at h
  all_goals
    have := List.find?_some h
    cases hc : old.content <;> simp [hc] at this
    rfl

theorem pairwise_before_map {l : List QFrame} {g : QFrame → QFrame}
    (hg : ∀ f ∈ l, (g f).content.cls = f.content.cls ∧ (g f).age = f.age) (h : l.Pairwise fun a b => a.before b = true) :
    (l.map g).Pairwise fun a b => a.before b = true := by
  rw [List.pairwise_map]
  exact h.imp_of_mem fun ha hb hab => by simpa [QFrame.before, hg _ ha, hg _ hb] using hab

theorem LinkUnit.Ordered.replace {l : LinkUnit} (h : l.Ordered) {old : QFrame} {c : Content} (hold : old ∈ l.queue)
    (hp : l.predecessor c = some old) (o : Owner) : (l.replace old o c).Ordered := by
  have hcls := Content.cls_eq_of_kind (LinkUnit.predecessor_kind hp)
  have hages : ((l.replace old o c).frames.map QFrame.age).Perm (l.frames.map QFrame.age) := by
    simpa using (h.replace_frames hold o c).map QFrame.age
  refine ⟨?_, hages.nodup_iff.mpr h.ages, fun f hf => ?_⟩
  · rw [h.replace_queue hold]
    exact pairwise_before_map (fun f _ => by split <;> simp_all) h.sorted
  · obtain ⟨g, hg, he⟩ := List.mem_map.mp (hages.subset (List.mem_map_of_mem hf))
    exact he ▸ h.given g hg

/-! ### The queue act by act -/

/-- The link unit has kept to its places, its order and its ages. -/
structure LinkUnit.Kept (l l' : LinkUnit) : Prop where
  count : l'.count ≤ max l.count Config.queueSize
  ordered : l.Ordered → l'.Ordered

theorem LinkUnit.Kept.trans {l l' l'' : LinkUnit} (h : l.Kept l') (h' : l'.Kept l'') : l.Kept l'' :=
  ⟨by have := h.count; have := h'.count; omega, h'.ordered ∘ h.ordered⟩

theorem LinkUnit.Shrunk.kept {l l' : LinkUnit} (h : l.Shrunk l') : l.Kept l' :=
  ⟨by have := h.count; omega, h.ordered⟩

theorem LinkUnit.Refit.count {l l' : LinkUnit} (h : l.Refit l') : l'.count = l.count := by
  rw [LinkUnit.count_eq, LinkUnit.count_eq]
  simpa using h.frames.length_eq

theorem LinkUnit.remove_count {l : LinkUnit} {v : QFrame} (hv : v ∈ l.queue) : (l.remove v.age).count < l.count := by
  have hlt : (l.queue.filter fun f => f.age != v.age).length < l.queue.length :=
    List.length_filter_lt_length_iff_exists.mpr ⟨v, hv, by simp⟩
  exact Nat.add_lt_add_right hlt _

theorem State.offer_kept (s : State) (o : Owner) (c : Content) {l : LinkUnit} (hl : s.link = l) :
    l.Kept (s.offer o c).link := by
  subst hl
  rcases s.offer_cases o c with ⟨old, hold, hp, e⟩ | ⟨-, hroom, e⟩ | ⟨v, hv, -, -, -, -, e⟩ | ⟨-, -, -, e⟩ <;> rw [e]
  · refine LinkUnit.Kept.trans (l' := s.link.replace old o c) ⟨?_, fun h => h.replace hold hp o⟩
      (State.lose_shrunk (s.withLink _) _ _).kept
    rw [LinkUnit.replace_count]; omega
  · exact ⟨by rw [State.withLink_link, LinkUnit.enqueue_count]; omega, fun h => h.enqueue o c⟩
  · have hshrunk := State.lose_shrunk (s.withLink (s.link.remove v.age)) v .evicted
    refine ⟨?_, fun h => (hshrunk.ordered ((s.link.remove_shrunk _).ordered h)).enqueue o c⟩
    have hlt := LinkUnit.remove_count hv
    have hle := hshrunk.count
    rw [State.withLink_link] at hle ⊢
    rw [LinkUnit.enqueue_count]
    omega
  · exact (State.lose_shrunk _ _ _).kept

theorem SameBooks.shrunk {s t : State} (h : SameBooks s t) : s.link.Shrunk t.link :=
  ⟨by rw [h.queue], .inl (by rw [h.flight]), h.nextAge⟩

theorem State.unflown_shrunk (s : State) : s.link.Shrunk s.unflown.link := ⟨.refl _, .inr rfl, rfl⟩

theorem State.makeRoom_shrunk {s t : State} (h : s.makeRoom = some t) : s.link.Shrunk t.link := by
  rcases s.makeRoom_cases with ⟨_, e⟩ | ⟨_, _, _, _, _, e⟩ | ⟨_, _, e⟩ <;> rw [e] at h <;> cases h
  · exact .refl _
  · exact LinkUnit.withdraw_shrunk _ _

theorem State.dropAll_shrunk (s : State) (l : Lifecycle) {u : LinkUnit} (hu : s.link = u) : u.Shrunk (s.dropAll l).link := by
  subst hu
  obtain ⟨g, e⟩ := s.dropAll_eq l
  rw [e]
  exact State.flushLink_shrunk _ rfl

theorem Act.kept {round : Prop} {s t : State} (h : Act round s t) : s.link.Kept t.link := by
  cases h
  case quiet hu hb => exact hb.shrunk.kept
  case refit l hu hr => exact ⟨by rw [State.withLink_link, hr.count]; omega, hr.ordered⟩
  case free uid => exact (LinkUnit.withdraw_shrunk _ _).kept
  case giveUp e he hw =>
    unfold State.giveUpCall
    dsimp only
    split
    · exact ((LinkUnit.withdrawCall_shrunk _ _).trans (LinkUnit.withdraw_shrunk _ _)).kept
    · exact (LinkUnit.withdrawCall_shrunk _ _).kept
  case close uid e o he ho hc => exact State.offer_kept _ _ _ rfl
  case offer o c hc ho => exact s.offer_kept o c rfl
  case decline tag reason hj hnew => exact State.offer_kept _ _ _ rfl
  case reply i kind result => exact State.offer_kept _ _ _ rfl
  case addEntry t e hj hroom htag huid ho => exact (State.makeRoom_shrunk hroom).kept
  case originate t u e f hj hroom hplaces htag huid ho hu hb =>
    exact ((State.makeRoom_shrunk hroom).trans hb.shrunk).kept.trans (u.offer_kept _ _ rfl)
  case withdrawDeclined tag =>
    unfold State.withdrawDeclined
    split
    · exact (LinkUnit.withdraw_shrunk _ _).kept
    · exact (LinkUnit.Shrunk.refl _).kept
  case dropAll hj => exact (s.dropAll_shrunk .muted rfl).kept
  case leave m hj => 
    exact (State.dropAll_shrunk { s with ctrl := { s.ctrl with monitor := m } } .leaving rfl).kept.trans
      (State.offer_kept _ _ _ rfl)
  case muteLeaving hl =>
    exact (State.flushLink_shrunk { s with ctrl := { s.ctrl with lifecycle := .muted } } rfl).kept
  case lost t fl f o hu hfl hb hsig ho => exact ((s.unflown_shrunk.trans hb.shrunk).trans (State.lose_shrunk _ _ _)).kept
  case callSent t fl uid hu hfl hb ho hc => exact (s.unflown_shrunk.trans hb.shrunk).kept
  case landed fl uid hb hu hfl ho hc => exact (s.unflown_shrunk.trans (by assumption : SameBooks _ _).shrunk).kept

theorem LinkUnit.reset_ordered : LinkUnit.reset.Ordered := ⟨.nil, .nil, fun f hf => by cases hf⟩

theorem LinkUnit.frames_eq {l l' : LinkUnit} (hq : l'.queue = l.queue) (hf : l'.flight = l.flight) : l'.frames = l.frames := by
  simp [LinkUnit.frames, hq, hf]

@[simp] theorem State.elapse_frames (s : State) (dt : Lapse) : (s.elapse dt).link.frames = s.link.frames :=
  LinkUnit.frames_eq (by simp) (by simp)

theorem State.elapse_shrunk (s : State) (dt : Lapse) : s.link.Shrunk (s.elapse dt).link :=
  ⟨by simp, .inl (by simp), by simp⟩

theorem queueOrdered_kept {s t : State} (h : step s = .next t) (hs : s.queueOrdered = true) : t.queueOrdered = true := by
  rw [State.queueOrdered_iff] at *
  refine step_keeps_of_act (P := fun s => s.link.Ordered) ?_ ?_ ?_ (fun h => h.kept.ordered) ?_ ?_ ?_ h hs
  · exact fun s q hs => hs
  · exact fun s dt hs => (s.elapse_shrunk dt).ordered hs
  · exact fun s hs => hs
  · exact fun s k _ _ => LinkUnit.reset_ordered
  · exact fun s h x _ hs => hs
  · intro s h straps normal hh hs
    rw [State.resetRelease_eq hh]; exact hs

theorem queueSound_kept {s t : State} (h : step s = .next t) (hs : s.queueSound = true) : t.queueSound = true := by
  simp only [State.queueSound, decide_eq_true_eq] at *
  refine step_keeps_of_act (P := fun s => s.link.count ≤ Config.queueSize) ?_ ?_ ?_ ?_ ?_ ?_ ?_ h hs
  · exact fun s q hs => hs
  · intro s dt hs; simpa using hs
  · exact fun s hs => hs
  · intro _ s t h hs
    have := h.kept.count
    omega
  · exact fun s k _ _ => Nat.zero_le _
  · exact fun s h x _ hs => hs
  · intro s h straps normal hh hs
    rw [State.resetRelease_eq hh]; exact hs

end Sys2Proof.Machine

/-!
PROOFS. The books on the frames act by act: the reply list, the declined list and the LEAVE (R10, R151, R174). What the
three have in common is a `Duty`: a property of the state and of the owners of the frames without an outcome, which stays
true as a frame gets its outcome and as one is offered.
-/

namespace Sys2Proof.Machine

-- one declaration after the other: fewer threads at a time
set_option Elab.async false

/-! ### Duties -/

/-- The owners of the frames the link unit holds. -/
def LinkUnit.owners (l : LinkUnit) : List Owner := l.frames.map QFrame.owner

/-- A property of the books and of the owners of the frames without an outcome, up to their order, in a link unit of which
`G` holds. The frames of entries and BEACONs have no duty. -/
structure Duty (P : State → List Owner → Prop) (G : LinkUnit → Prop) : Prop where
  perm : ∀ {s D D'}, D.Perm D' → P s D → P s D'
  books : ∀ {s t D}, P s D → t.req.replies.map ReplyEntry.id = s.req.replies.map ReplyEntry.id →
    t.req.nextId = s.req.nextId → t.cap.declined = s.cap.declined →
    s.ctrl.lifecycle.leaveRoom ≤ t.ctrl.lifecycle.leaveRoom → P t D
  idle : ∀ {s o D}, (o = .time ∨ ∃ uid, o = .entry uid) → (P s (o :: D) ↔ P s D)
  undecline : ∀ {s tag D}, P s (.declined tag :: D) → P (s.undecline tag) D
  forget : ∀ {s tag D}, tag ∉ s.cap.declined → (P s (.declined tag :: D) ↔ P s D)
  dropReply : ∀ {s id D}, P s (.reply id :: D) → P (s.dropReply id) D
  leaveEnded : ∀ {s D}, P s (.controller :: D) → P s.leaveEnded D
  withdrawn : ∀ {s D}, P s (.controller :: D) → P s D
  decline : ∀ {s tag D}, tag ∉ s.cap.declined → P s D →
    P { s with cap := { s.cap with declined := s.cap.declined ++ [tag] } } (.declined tag :: D)
  reply : ∀ {s D} (r : ReplyEntry), r.id = s.req.nextId → P s D →
    P { s with req := { s.req with replies := s.req.replies ++ [r], nextId := s.req.nextId + 1 } }
      (.reply s.req.nextId :: D)
  clear : ∀ {s t D}, P s D → t.req = s.req → t.cap.declined = [] →
    s.ctrl.lifecycle.leaveRoom ≤ t.ctrl.lifecycle.leaveRoom → P t D
  depart : ∀ {s t D}, P s D → t.req = s.req → t.cap.declined = [] → s.ctrl.lifecycle = .joined →
    t.ctrl.lifecycle = .leaving → P t (.controller :: D)
  shrunk : ∀ {l l'}, l.Shrunk l' → G l → G l'
  remove : ∀ {s l v H}, G l → v ∈ l.queue → P s (l.owners ++ H) → P s (v.owner :: ((l.remove v.age).owners ++ H))
  replace : ∀ {s l old o c}, G l → l.predecessor c = some old → old ∈ l.queue → o ≠ .controller → P s (o :: l.owners) →
    P s (old.owner :: (l.replace old o c).owners)

section
variable {P : State → List Owner → Prop} {G : LinkUnit → Prop}

/-- Frames without a duty may be filtered out of a queue. -/
theorem Duty.filter (h : Duty P G) {s : State} {p : QFrame → Bool}
    (hp : ∀ f, p f = false → ∀ D, P s (f.owner :: D) → P s D) (q : List QFrame) (A H : List Owner)
    (hs : P s (A ++ (q.map QFrame.owner ++ H))) : P s (A ++ ((q.filter p).map QFrame.owner ++ H)) := by
  induction q generalizing A with
  | nil => exact hs
  | cons f rest ih =>
    cases hf : p f with
    | true =>
      rw [List.filter_cons_of_pos (by simp [hf])]
      have := ih (A ++ [f.owner]) (by simpa using hs)
      simpa using this
    | false =>
      rw [List.filter_cons_of_neg (by simp [hf])]
      exact ih A (hp f hf _ (h.perm List.perm_middle hs))

/-- R144: withdrawing frames without a duty. -/
theorem Duty.withdraw (h : Duty P G) {s : State} {l : LinkUnit} {o : Owner} {H : List Owner}
    (ho : ∀ D, P s (o :: D) → P s D) (hs : P s (l.owners ++ H)) : P s ((l.withdraw o).owners ++ H) := by
  simp only [LinkUnit.owners, LinkUnit.frames, List.map_append, List.append_assoc] at *
  refine h.filter (fun f hf D hD => ho D ?_) l.queue _ H hs
  simp only [ne_eq, decide_not, Bool.not_eq_false', decide_eq_true_eq] at hf
  exact hf ▸ hD

/-- R145: the outcome of an entry's frame touches no book. -/
theorem State.lose_entry {s : State} {f : QFrame} {uid : Nat} (h : f.owner = .entry uid) (o : Loss) :
    (s.lose f o).req = s.req ∧ (s.lose f o).cap.declined = s.cap.declined ∧ (s.lose f o).ctrl = s.ctrl := by
  have hcall : (s.callLost uid).req = s.req ∧ (s.callLost uid).cap.declined = s.cap.declined ∧
      (s.callLost uid).ctrl = s.ctrl := by
    unfold State.callLost
    split
    · exact ⟨rfl, rfl, rfl⟩
    · split <;> exact ⟨rfl, rfl, rfl⟩
  obtain ⟨owner, content, age, attempts, started⟩ := f
  cases h
  cases content with
  | call c => simp only [State.lose]; split <;> [exact ⟨rfl, rfl, rfl⟩; exact hcall]
  | report c | close c => simp only [State.lose]; split <;> exact ⟨rfl, rfl, rfl⟩
  | leave _ | beacon _ | reply _ _ => exact ⟨rfl, rfl, rfl⟩

/-- R145: a frame that gets its outcome leaves the owners. -/
theorem Duty.lose (h : Duty P G) {s : State} {f : QFrame} {o : Loss} {H : List Owner}
    (hs : P s (f.owner :: (s.link.owners ++ H))) : P (s.lose f o) ((s.lose f o).link.owners ++ H) := by
  have hidle : ∀ {u : State} {uid D}, P u (.entry uid :: D) → P u D := fun hu => (h.idle (.inr ⟨_, rfl⟩)).mp hu
  cases howner : f.owner with
  | entry uid =>
    obtain ⟨hreq, hdeclined, hctrl⟩ := State.lose_entry (s := s) howner o
    have hbooks : P (s.lose f o) (s.link.owners ++ H) :=
      h.books (hidle (howner ▸ hs)) (by rw [hreq]) (by rw [hreq]) hdeclined (by rw [hctrl])
    rcases s.lose_link f o with e | ⟨uid, -, e⟩ <;> rw [e]
    · exact hbooks
    · exact h.withdraw (fun _ => hidle) hbooks
  | declined tag =>
    have e : s.lose f o = s.undecline tag := by unfold State.lose; simp [howner]
    rw [e]
    exact h.undecline (howner ▸ hs)
  | time =>
    have e : s.lose f o = s := by unfold State.lose; simp [howner]
    rw [e]
    exact (h.idle (.inl rfl)).mp (howner ▸ hs)
  | reply id =>
    have e : s.lose f o = s.dropReply id := by unfold State.lose; simp [howner]
    rw [e]
    exact h.dropReply (howner ▸ hs)
  | controller =>
    have e : s.lose f o = if o = .withdrawn then s else s.leaveEnded := by unfold State.lose; simp [howner]
    have hlink : s.leaveEnded.link = s.link := by
      rcases s.leaveEnded_cases with e | ⟨-, -, e⟩ | ⟨-, -, e⟩ <;> (rw [e]; try rfl)
    rw [howner] at hs
    rw [e]
    split
    · exact h.withdrawn hs
    · rw [hlink]; exact h.leaveEnded hs

theorem Duty.foldl_lose (h : Duty P G) {s : State} {q : List QFrame} {o : Loss} {H : List Owner}
    (hs : P s (q.map QFrame.owner ++ (s.link.owners ++ H))) :
    P (q.foldl (fun s f => s.lose f o) s) ((q.foldl (fun s f => s.lose f o) s).link.owners ++ H) := by
  induction q generalizing s H with
  | nil => exact hs
  | cons f rest ih =>
    refine ih ?_
    have hlose := h.lose (s := s) (f := f) (o := o) (H := rest.map QFrame.owner ++ H) (h.perm ?_ hs)
    · exact h.perm (by
        rw [← List.append_assoc, ← List.append_assoc]
        exact List.perm_append_comm.append_right _) hlose
    · rw [List.map_cons, List.cons_append, ← List.append_assoc, ← List.append_assoc]
      exact .cons _ (List.perm_append_comm.append_right _)

/-- R149: every frame not on the wire gets its outcome. -/
theorem Duty.flushLink (h : Duty P G) {s : State} {H : List Owner} (hs : P s (s.link.owners ++ H)) :
    P s.flushLink (s.flushLink.link.owners ++ H) := by
  have hwith : ∀ {D l}, P s D → P (s.withLink l) D := fun hs => h.books hs rfl rfl rfl (le_refl _)
  rw [State.flushLink_eq]
  cases hf : s.link.flight with
  | none =>
    dsimp only
    refine h.foldl_lose (hwith ?_)
    simpa [LinkUnit.owners, LinkUnit.frames, LinkUnit.flushed, hf] using hs
  | some fl =>
    dsimp only
    cases hw : fl.onWire with
    | true =>
      refine h.foldl_lose (hwith (h.perm ?_ hs))
      simp only [LinkUnit.owners, LinkUnit.frames, LinkUnit.flushed, hf, hw, State.withLink_link, Option.bind_some, if_true,
        Option.map_some, Option.toList_some, List.map_cons, List.map_nil, List.append_nil, List.singleton_append]
      exact List.perm_middle.symm
    | false =>
      refine h.lose (h.perm List.perm_middle (h.foldl_lose (s := s.withLink s.link.flushed) (H := fl.frame.owner :: H)
        (hwith (h.perm ?_ hs))))
      · simp only [LinkUnit.owners, LinkUnit.frames, LinkUnit.flushed, hf, hw, State.withLink_link, Option.bind_some,
          Option.map_some, Option.toList_some, List.map_append, List.map_cons, List.map_nil, List.nil_append,
          List.append_assoc, List.singleton_append]
        simpa using List.perm_middle.symm

theorem Duty.flushAll (h : Duty P G) {s : State} (hs : P s s.link.owners) : P s.flushLink s.flushLink.link.owners := by
  simpa using h.flushLink (H := []) (by simpa using hs)

theorem LinkUnit.owners_enqueue (l : LinkUnit) (o : Owner) (c : Content) : (l.enqueue o c).owners.Perm (o :: l.owners) :=
  (l.enqueue_frames o c).map _

/-- R143: an offered frame is admitted, in place of another perhaps, or gets its outcome at once. -/
theorem Duty.offer (h : Duty P G) {s : State} {o : Owner} {c : Content} (hg : G s.link)
    (ho : o = .controller → s.link.predecessor c = none) (hs : P s (o :: s.link.owners)) :
    P (s.offer o c) (s.offer o c).link.owners := by
  have hwith : ∀ {u : State} {D l}, P u D → P (u.withLink l) D := fun hs => h.books hs rfl rfl rfl (le_refl _)
  have hlose : ∀ {u : State} {f x}, P u (f.owner :: u.link.owners) → P (u.lose f x) (u.lose f x).link.owners := by
    intro u f x hu
    simpa using h.lose (H := []) (o := x) (by simpa using hu)
  rcases s.offer_cases o c with ⟨old, hold, hp, e⟩ | ⟨-, -, e⟩ | ⟨v, hv, -, -, -, -, e⟩ | ⟨-, -, -, e⟩ <;> rw [e]
  · refine hlose (hwith (h.replace hg hp hold (fun he => ?_) hs))
    rw [ho he] at hp
    cases hp
  · exact hwith (h.perm (s.link.owners_enqueue o c).symm hs)
  · have hremoved : P (s.withLink (s.link.remove v.age)) (v.owner :: ((s.link.remove v.age).owners ++ [o])) :=
      hwith (h.remove hg hv (h.perm (List.perm_append_singleton _ _).symm hs))
    refine hwith (h.perm ?_ (h.lose (s := s.withLink (s.link.remove v.age)) (o := .evicted) hremoved))
    exact (List.perm_append_singleton _ _).trans (LinkUnit.owners_enqueue _ o c).symm
  · exact hlose hs

theorem Duty.free (h : Duty P G) {s : State} {uid : Nat} (hs : P s s.link.owners) :
    P (s.freeEntry uid) (s.freeEntry uid).link.owners := by
  have := h.withdraw (o := .entry uid) (H := []) (fun _ => (h.idle (.inr ⟨uid, rfl⟩)).mp) (by simpa using hs)
  rw [List.append_nil] at this
  exact h.books this rfl rfl rfl (le_refl _)

theorem Duty.makeRoom (h : Duty P G) {s t : State} (hroom : s.makeRoom = some t) (hs : P s s.link.owners) :
    P t t.link.owners := by
  rcases s.makeRoom_cases with ⟨_, e⟩ | ⟨_, _, _, _, _, e⟩ | ⟨_, _, e⟩ <;> rw [e] at hroom <;> cases hroom
  · exact hs
  · exact h.free hs

theorem Duty.same (h : Duty P G) {s t : State} (hb : SameBooks s t) {D : List Owner} (hs : P s D) : P t D :=
  h.books hs hb.replies hb.nextId hb.declined hb.leaveRoom

theorem SameBooks.owners {s t : State} (hb : SameBooks s t) : t.link.owners = s.link.owners := by
  rw [LinkUnit.owners, LinkUnit.owners, LinkUnit.frames_eq hb.queue hb.flight]

/-- The frame taken out of flight is the one owner more. -/
theorem State.unflown_owners {s : State} {fl : Flight} (h : s.link.flight = some fl) :
    s.link.owners = fl.frame.owner :: s.unflown.link.owners := by
  simp [LinkUnit.owners, LinkUnit.frames, State.unflown, h]

/-- A duty stays done act by act. -/
theorem Duty.act (h : Duty P G) {round : Prop} {s t : State} (ha : Act round s t) (hg : G s.link)
    (hs : P s s.link.owners) : P t t.link.owners := by
  have hidle : ∀ {u : State} {uid D}, P u (.entry uid :: D) → P u D := fun hu => (h.idle (.inr ⟨_, rfl⟩)).mp hu
  have hentry : ∀ {u : State} {uid c}, G u.link → P u u.link.owners → P (u.offer (.entry uid) c) (u.offer (.entry uid) c).link.owners :=
    fun hg hu => h.offer hg (by simp) ((h.idle (.inr ⟨_, rfl⟩)).mpr hu)
  have hout : ∀ {u fl}, s.link.flight = some fl → SameBooks s.unflown u → P u (fl.frame.owner :: u.link.owners) := by
    intro u fl hfl hb
    rw [hb.owners, ← State.unflown_owners hfl]
    exact h.same hb (h.books hs rfl rfl rfl (le_refl _))
  cases ha
  case quiet hu hb => rw [hb.owners]; exact h.same hb hs
  case refit l hu hr =>
    refine h.books (h.perm ?_ hs) rfl rfl rfl (le_refl _)
    simpa [LinkUnit.owners, QFrame.sig, Function.comp_def] using (hr.frames.map Prod.fst).symm
  case free uid => exact h.free hs
  case giveUp e he hw =>
    have hcall : P (s.withLink (s.link.withdrawCall (.entry e.uid))) (s.link.withdrawCall (.entry e.uid)).owners := by
      have hfilter := h.filter (s := s) (H := []) (p := fun f => !(decide (f.owner = .entry e.uid) && f.content.isCall))
        (fun f hf D hD => ?_) s.link.queue ((s.link.flight.map Flight.frame).toList.map QFrame.owner)
        (by simpa [LinkUnit.owners, LinkUnit.frames] using hs)
      · have hwithdrawn : P s (s.link.withdrawCall (.entry e.uid)).owners := by
          simpa [LinkUnit.owners, LinkUnit.frames, LinkUnit.withdrawCall] using hfilter
        exact h.books hwithdrawn rfl rfl rfl (le_refl _)
      · simp only [Bool.not_eq_false', Bool.and_eq_true, decide_eq_true_eq] at hf
        exact hidle (hf.1 ▸ hD)
    have hdropped : P ((s.withLink (s.link.withdrawCall (.entry e.uid))).onEntry e.uid fun e => { e with origin := none })
        (s.link.withdrawCall (.entry e.uid)).owners := h.books hcall rfl rfl rfl (le_refl _)
    unfold State.giveUpCall
    dsimp only
    split
    · exact h.free hdropped
    · exact hdropped
  case close uid e o he ho hc => exact hentry (u := s.onEntry uid _) hg (h.books hs rfl rfl rfl (le_refl _))
  case offer o c hc ho =>
    refine h.offer hg ?_ ((h.idle (ho.imp_right fun ⟨e, _, he⟩ => ⟨_, he⟩)).mpr hs)
    rcases ho with rfl | ⟨e, -, rfl⟩ <;> simp
  case decline tag reason hj hnew => exact h.offer hg (by simp) (h.decline hnew hs)
  case reply i kind result => exact h.offer hg (by simp) (h.reply _ rfl hs)
  case addEntry t e hj hroom htag huid ho => exact h.books (s := t) (h.makeRoom hroom hs) rfl rfl rfl (le_refl _)
  case originate t u e f hj hroom hplaces htag huid ho hu hb =>
    have hgu : G u.link := h.shrunk ((State.makeRoom_shrunk hroom).trans hb.shrunk) hg
    refine hentry hgu ?_
    rw [hb.owners]
    exact h.same hb (h.books (s := t) (h.makeRoom hroom hs) rfl rfl rfl (le_refl _))
  case withdrawDeclined tag =>
    unfold State.withdrawDeclined
    split
    · rename_i hany
      obtain ⟨f, hf, howner⟩ := List.any_eq_true.mp hany
      simp only [decide_eq_true_eq] at howner
      have hmem : Owner.declined tag ∈ s.link.owners :=
        List.mem_map.mpr ⟨f, List.mem_append_right _ hf, howner⟩
      have hD := List.perm_cons_erase hmem
      have hundeclined : tag ∉ (s.undecline tag).cap.declined := by simp [State.undecline]
      have howners : P (s.undecline tag) s.link.owners :=
        h.perm hD.symm ((h.forget hundeclined).mpr (h.undecline (h.perm hD hs)))
      have hwithdrawn := h.withdraw (H := []) (fun D => (h.forget hundeclined).mp) (by simpa using howners)
      rw [List.append_nil] at hwithdrawn
      exact h.books (s := s.undecline tag) hwithdrawn rfl rfl rfl (le_refl _)
    · exact hs
  case dropAll hj =>
    obtain ⟨g, e⟩ := s.dropAll_eq .muted
    rw [e]
    have hjoined : s.ctrl.lifecycle = .joined := by simp [State.joined] at hj; exact hj.2
    exact h.flushAll (h.clear (s := s) hs rfl rfl (by simp [hjoined, Lifecycle.leaveRoom]))
  case leave m hj =>
    have hjoined : s.ctrl.lifecycle = .joined := by simp [State.joined] at hj; exact hj.2
    refine h.offer (h.shrunk (State.dropAll_shrunk { s with ctrl := { s.ctrl with monitor := m } } .leaving rfl) hg)
      (by simp) ?_
    obtain ⟨g, e⟩ := State.dropAll_eq { s with ctrl := { s.ctrl with monitor := m } } .leaving
    rw [e]
    refine h.perm (List.perm_append_singleton _ _) (h.flushLink (H := [.controller])
      (h.perm (List.perm_append_singleton _ _).symm (h.depart hs rfl rfl hjoined rfl)))
  case muteLeaving hl =>
    exact h.flushAll (s := { s with ctrl := { s.ctrl with lifecycle := .muted } })
      (h.books (s := s) hs rfl rfl rfl (by simp [hl, Lifecycle.leaveRoom]))
  case lost t fl f o hu hfl hb hsig ho =>
    have := h.lose (s := t) (f := f) (o := o) (H := []) (by simpa [(QFrame.sig_eq.mp hsig).1] using hout hfl hb)
    simpa using this
  case callSent t fl uid hu hfl hb ho hc => exact h.books (s := t) (hidle (ho ▸ hout hfl hb)) rfl rfl rfl (le_refl _)
  case landed fl uid hfl ho hc hu hb => exact hidle (ho ▸ hout hfl hb)

/-- With the ages told apart a removal and a replacement are exact. -/
theorem Duty.of_ordered
    (perm : ∀ {s D D'}, D.Perm D' → P s D → P s D') {s : State} {l : LinkUnit} (hl : l.Ordered) :
    (∀ {v H}, v ∈ l.queue → P s (l.owners ++ H) → P s (v.owner :: ((l.remove v.age).owners ++ H))) ∧
    ∀ {old o c}, old ∈ l.queue → P s (o :: l.owners) → P s (old.owner :: (l.replace old o c).owners) :=
  ⟨fun hv hs => perm (((hl.remove_frames hv).map QFrame.owner).append_right _) hs,
    fun hold hs => perm ((hl.replace_frames hold _ _).map QFrame.owner).symm hs⟩

end

/-! ### The reply list (R151) -/

/-- The reply-list entry an owner names. -/
def Owner.replyId? : Owner → Option Nat
  | .reply id => some id
  | .entry _ | .declined _ | .time | .controller => none

theorem QFrame.replyId?_eq (f : QFrame) : f.replyId? = f.owner.replyId? := by
  unfold QFrame.replyId? Owner.replyId?
  cases f.owner <;> rfl

/-- R151: one entry for each REPLY without an outcome, each under a name that has been given out. -/
structure State.Replying (s : State) (D : List Owner) : Prop where
  each : (s.req.replies.map ReplyEntry.id).Perm (D.filterMap Owner.replyId?)
  nodup : (s.req.replies.map ReplyEntry.id).Nodup
  given : ∀ id ∈ s.req.replies.map ReplyEntry.id, id < s.req.nextId

theorem State.repliesSound_iff (s : State) : s.repliesSound = true ↔ s.Replying s.link.owners := by
  have hids : s.link.frames.filterMap QFrame.replyId? = s.link.owners.filterMap Owner.replyId? := by
    rw [LinkUnit.owners, List.filterMap_map]
    exact List.filterMap_congr fun f _ => f.replyId?_eq
  simp only [State.repliesSound, hids, Bool.and_eq_true, decide_eq_true_eq, List.all_eq_true, and_assoc]
  exact ⟨fun ⟨a, b, c⟩ => ⟨a, b, by simpa using c⟩, fun ⟨a, b, c⟩ => ⟨a, b, by simpa using c⟩⟩

theorem State.Replying.of_same {s t : State} {D D' : List Owner} (h : s.Replying D)
    (hr : t.req.replies.map ReplyEntry.id = s.req.replies.map ReplyEntry.id) (hn : t.req.nextId = s.req.nextId)
    (hD : D'.filterMap Owner.replyId? = D.filterMap Owner.replyId?) : t.Replying D' :=
  ⟨by rw [hr, hD]; exact h.each, by rw [hr]; exact h.nodup, by rw [hr, hn]; exact h.given⟩

theorem replying_duty : Duty State.Replying LinkUnit.Ordered where
  perm hD h := ⟨h.each.trans (hD.filterMap _), h.nodup, h.given⟩
  books h hr hn _ _ := h.of_same hr hn rfl
  idle ho := by rcases ho with rfl | ⟨uid, rfl⟩ <;> exact ⟨fun h => h.of_same rfl rfl rfl, fun h => h.of_same rfl rfl rfl⟩
  undecline h := h.of_same rfl rfl rfl
  forget _ := ⟨fun h => h.of_same rfl rfl rfl, fun h => h.of_same rfl rfl rfl⟩
  dropReply {s id D} h := by
    have hids : (s.dropReply id).req.replies.map ReplyEntry.id = (s.req.replies.map ReplyEntry.id).erase id := by
      rw [h.nodup.erase_eq_filter, List.filter_map]
      rfl
    refine ⟨?_, by rw [hids]; exact h.nodup.erase _, fun i hi => h.given i (List.mem_of_mem_erase (hids ▸ hi))⟩
    rw [hids]
    simpa [Owner.replyId?] using h.each.erase id
  leaveEnded {s D} h := by
    rcases s.leaveEnded_cases with e | ⟨-, -, e⟩ | ⟨-, -, e⟩ <;> rw [e] <;> exact h.of_same rfl rfl rfl
  withdrawn h := h.of_same rfl rfl rfl
  decline _ h := h.of_same rfl rfl rfl
  reply {s D} r hr h := by
    have hids : (s.req.replies ++ [r]).map ReplyEntry.id = s.req.replies.map ReplyEntry.id ++ [s.req.nextId] := by simp [hr]
    refine ⟨?_, ?_, fun i hi => ?_⟩ <;> dsimp only at *
    · rw [hids]
      exact (List.perm_append_singleton _ _).trans (.cons _ h.each)
    · rw [hids, List.nodup_append]
      refine ⟨h.nodup, by simp, fun i hi j hj => ?_⟩
      have := h.given i hi
      simp at hj
      omega
    · rw [hids, List.mem_append, List.mem_singleton] at hi
      rcases hi with hi | rfl
      · exact Nat.lt_succ_of_lt (h.given i hi)
      · exact Nat.lt_succ_self _
  clear h hr _ _ := h.of_same (by rw [hr]) (by rw [hr]) rfl
  depart h hr _ _ _ := h.of_same (by rw [hr]) (by rw [hr]) rfl
  shrunk hl h := hl.ordered h
  remove hl hv hs := (Duty.of_ordered (P := State.Replying) (fun hD h => ⟨h.each.trans (hD.filterMap _), h.nodup, h.given⟩) hl).1 hv hs
  replace hl _ hold _ hs :=
    (Duty.of_ordered (P := State.Replying) (fun hD h => ⟨h.each.trans (hD.filterMap _), h.nodup, h.given⟩) hl).2 hold hs

/-! ### The declined list (R10) -/

/-- R10: each tag once, with its declined REPORT. -/
structure State.Declining (s : State) (D : List Owner) : Prop where
  nodup : s.cap.declined.Nodup
  each : ∀ tag ∈ s.cap.declined, Owner.declined tag ∈ D

theorem State.declinedSound_iff (s : State) : s.declinedSound = true ↔ s.Declining s.link.owners := by
  have key : s.declinedSound = true ↔ s.cap.declined.Nodup ∧ ∀ tag ∈ s.cap.declined, Owner.declined tag ∈ s.link.owners := by
    simp [State.declinedSound, LinkUnit.owners]
  exact key.trans ⟨fun ⟨a, b⟩ => ⟨a, b⟩, fun ⟨a, b⟩ => ⟨a, b⟩⟩

theorem State.Declining.of_same {s t : State} {D D' : List Owner} (h : s.Declining D) (hd : t.cap.declined = s.cap.declined)
    (hD : ∀ tag ∈ s.cap.declined, Owner.declined tag ∈ D → Owner.declined tag ∈ D') : t.Declining D' :=
  ⟨by rw [hd]; exact h.nodup, by rw [hd]; exact fun tag ht => hD tag ht (h.each tag ht)⟩

theorem declining_duty : Duty State.Declining LinkUnit.Ordered where
  perm hD h := h.of_same rfl fun _ _ hmem => hD.subset hmem
  books h _ _ hd _ := h.of_same hd fun _ _ => id
  idle ho := by
    rcases ho with rfl | ⟨uid, rfl⟩ <;>
      exact ⟨fun h => h.of_same rfl (by simp), fun h => h.of_same rfl (by simp)⟩
  undecline {s tag D} h := by
    refine ⟨h.nodup.filter _, fun x hx => ?_⟩
    simp only [State.undecline, List.mem_filter, decide_eq_true_eq] at hx
    simpa [hx.2] using h.each x hx.1
  forget {s tag D} ht := by
    refine ⟨fun h => h.of_same rfl fun x hx hmem => ?_, fun h => h.of_same rfl fun _ _ => List.mem_cons_of_mem _⟩
    rcases List.mem_cons.mp hmem with he | hmem
    · cases he; exact absurd hx ht
    · exact hmem
  dropReply h := h.of_same rfl (by simp)
  leaveEnded {s D} h := by
    rcases s.leaveEnded_cases with e | ⟨-, -, e⟩ | ⟨-, -, e⟩ <;> rw [e] <;> exact h.of_same rfl (by simp)
  withdrawn h := h.of_same rfl (by simp)
  decline {s tag D} ht h := by
    refine ⟨List.nodup_append.mpr ⟨h.nodup, by simp, ?_⟩, fun x hx => ?_⟩
    · intro x hx y hy
      rw [List.mem_singleton] at hy
      exact fun he => ht (hy ▸ he ▸ hx)
    · rcases List.mem_append.mp hx with hx | hx
      · exact List.mem_cons_of_mem _ (h.each x hx)
      · rw [List.mem_singleton.mp hx]; exact List.mem_cons_self ..
  reply r _ h := h.of_same rfl fun _ _ => List.mem_cons_of_mem _
  clear _ _ hd _ := ⟨by simp [hd], by simp [hd]⟩
  depart _ _ hd _ _ := ⟨by simp [hd], by simp [hd]⟩
  shrunk hl h := hl.ordered h
  remove hl hv hs := (Duty.of_ordered (P := State.Declining) (fun hD h => h.of_same rfl fun _ _ hmem => hD.subset hmem) hl).1 hv hs
  replace hl _ hold _ hs :=
    (Duty.of_ordered (P := State.Declining) (fun hD h => h.of_same rfl fun _ _ hmem => hD.subset hmem) hl).2 hold hs

/-! ### The LEAVE (R174) -/

/-- R174: the controller has no more frames without an outcome than its lifecycle state has room for. -/
def State.Leaving (s : State) (D : List Owner) : Prop := D.count .controller ≤ s.ctrl.lifecycle.leaveRoom

theorem State.leaveSound_iff (s : State) : s.leaveSound = true ↔ s.Leaving s.link.owners := by
  have hcount : (s.link.frames.filter fun f => decide (f.owner = .controller)).length = s.link.owners.count .controller := by
    rw [LinkUnit.owners, List.count, List.countP_map, List.countP_eq_length_filter]
    rfl
  cases h : s.ctrl.lifecycle <;> simp only [State.leaveSound, State.Leaving, Lifecycle.leaveRoom, h, hcount, decide_eq_true_eq]

/-- Where no frame takes the owner `x` and one gives it up, one frame less has it. -/
theorem count_map_add_le {q : List QFrame} {g : QFrame → QFrame} {x : Owner} {old : QFrame}
    (hg : ∀ f, (g f).owner = x → f.owner = x) (hx : (g old).owner ≠ x) (hold : old ∈ q) :
    ((q.map g).map QFrame.owner).count x + [old.owner].count x ≤ (q.map QFrame.owner).count x := by
  have hall := ((List.perm_cons_erase hold).map QFrame.owner).count_eq x
  have hmapped := (((List.perm_cons_erase hold).map g).map QFrame.owner).count_eq x
  have hrest : (((q.erase old).map g).map QFrame.owner).count x ≤ ((q.erase old).map QFrame.owner).count x := by
    simp only [List.count, List.countP_map]
    exact List.countP_mono_left fun f _ hf => by simpa using hg f (by simpa using hf)
  rw [List.map_cons, List.map_cons, List.count_cons_of_ne hx] at hmapped
  rw [List.map_cons, ← List.singleton_append, List.count_append] at hall
  omega

theorem leaving_duty : Duty State.Leaving fun _ => True where
  perm hD h := le_of_eq_of_le (hD.symm.count_eq _) h
  books h _ _ _ hroom := h.trans hroom
  idle ho := by rcases ho with rfl | ⟨uid, rfl⟩ <;> simp [State.Leaving]
  undecline h := by simpa [State.Leaving] using h
  forget _ := by simp [State.Leaving]
  dropReply h := by simpa [State.Leaving] using h
  leaveEnded {s D} h := by
    simp only [State.Leaving, List.count_cons_self] at *
    rcases s.leaveEnded_cases with e | ⟨hl, -, e⟩ | ⟨hl, -, e⟩ <;> rw [e]
    · omega
    all_goals
      rw [hl, Lifecycle.leaveRoom] at h
      omega
  withdrawn h := by simp only [State.Leaving, List.count_cons_self] at *; omega
  decline _ h := by simpa [State.Leaving] using h
  reply r _ h := by simpa [State.Leaving] using h
  clear h _ _ hroom := h.trans hroom
  depart h _ _ hj hl := by
    simp only [State.Leaving, List.count_cons_self, hj, hl, Lifecycle.leaveRoom] at *
    omega
  shrunk _ _ := trivial
  remove {s l v H} _ hv h := by
    have hflown : (l.remove v.age).flight = l.flight := rfl
    have hremoved : ((l.remove v.age).queue.map QFrame.owner).count .controller + [v.owner].count .controller ≤
        (l.queue.map QFrame.owner).count .controller := by
      have hsub : (l.queue.filter fun f => f.age != v.age).Sublist (l.queue.erase v) := by
        have herase := (List.filter_sublist (l := l.queue) (p := fun f => f.age != v.age)).erase v
        rwa [List.erase_of_not_mem (by simp)] at herase
      have hcount := ((hsub.map QFrame.owner).count_le Owner.controller)
      have hall := ((List.perm_cons_erase hv).map QFrame.owner).count_eq Owner.controller
      rw [List.map_cons, ← List.singleton_append, List.count_append] at hall
      have hqueue : (l.remove v.age).queue = l.queue.filter fun f => f.age != v.age := rfl
      rw [hqueue]
      omega
    simp only [State.Leaving, LinkUnit.owners, LinkUnit.frames, hflown, List.map_append, List.count_append] at *
    rw [← List.singleton_append, List.count_append, List.count_append, List.count_append]
    omega
  replace {s l old o c} _ _ hold ho h := by
    have hflown : (l.replace old o c).flight = l.flight := rfl
    have hreplaced : ((l.replace old o c).queue.map QFrame.owner).count .controller + [old.owner].count .controller ≤
        (l.queue.map QFrame.owner).count .controller := by
      exact count_map_add_le (g := fun f => if f.age = old.age then ⟨o, c, old.age, 0, false⟩ else f)
        (fun f hf => by split at hf <;> simp_all) (by simpa using ho) hold
    simp only [State.Leaving, LinkUnit.owners, LinkUnit.frames, hflown, List.map_append, List.count_append,
      List.count_cons_of_ne ho] at *
    rw [← List.singleton_append, List.count_append, List.count_append]
    omega

/-! ### The books step by step -/

/-- What a duty asks is kept by every step. -/
theorem Duty.step {P : State → List Owner → Prop} (h : Duty P LinkUnit.Ordered)
    (hreset : ∀ (s : State) k, P (s.beginHold k) [])
    (hrelease : ∀ {s : State} {x straps normal D}, s.ctrl.hold = some x → P s D → P (s.resetRelease straps normal) D)
    {s t : State} (hstep : step s = .next t) (ho : s.link.Ordered) (hs : P s s.link.owners) : P t t.link.owners := by
  refine (step_keeps_of_act (P := fun s => s.link.Ordered ∧ P s s.link.owners) ?_ ?_ ?_ ?_ ?_ ?_ ?_ hstep ⟨ho, hs⟩).2
  · exact fun s q ⟨ho, hs⟩ => ⟨ho, h.books hs rfl rfl rfl (le_refl _)⟩
  · refine fun s dt ⟨ho, hs⟩ => ⟨(s.elapse_shrunk dt).ordered ho, ?_⟩
    rw [LinkUnit.owners, State.elapse_frames]
    exact h.books hs (by simp) (by simp) (by simp) (by simp)
  · exact fun s ⟨ho, hs⟩ => ⟨ho, h.books hs rfl rfl rfl (le_refl _)⟩
  · exact fun ha ⟨ho, hs⟩ => ⟨ha.kept.ordered ho, h.act ha ho hs⟩
  · exact fun s k _ _ => ⟨LinkUnit.reset_ordered, hreset s k⟩
  · exact fun s x y _ ⟨ho, hs⟩ => ⟨ho, h.books hs rfl rfl rfl (le_refl _)⟩
  · intro s x straps normal hh ⟨ho, hs⟩
    have hlink : (s.resetRelease straps normal).link = s.link := by rw [State.resetRelease_eq hh]
    exact ⟨hlink ▸ ho, by rw [hlink]; exact hrelease hh hs⟩

theorem repliesSound_kept {s t : State} (h : step s = .next t) (ho : s.queueOrdered = true) (hs : s.repliesSound = true) :
    t.repliesSound = true := by
  rw [State.queueOrdered_iff] at ho
  rw [State.repliesSound_iff] at *
  refine replying_duty.step (fun s k => ⟨.nil, .nil, by simp [State.beginHold, State.held, RequestUnit.reset]⟩) ?_ h ho hs
  intro s x straps normal D hh hs
  rw [State.resetRelease_eq hh]
  exact hs.of_same rfl rfl rfl

theorem declinedSound_kept {s t : State} (h : step s = .next t) (ho : s.queueOrdered = true) (hs : s.declinedSound = true) :
    t.declinedSound = true := by
  rw [State.queueOrdered_iff] at ho
  rw [State.declinedSound_iff] at *
  refine declining_duty.step (fun s k => ⟨.nil, by simp [State.beginHold, State.held, Capture.reset]⟩) ?_ h ho hs
  intro s x straps normal D hh hs
  rw [State.resetRelease_eq hh]
  exact hs.of_same rfl fun _ _ => id

/-- R163, R174: the LEAVE is gone before a hold. -/
theorem State.held_leaving (h : Hold) (cause : ResetCause) (pins : Pins) (q : List Instr) :
    (State.held h cause pins q).Leaving (State.held h cause pins q).link.owners := Nat.zero_le _

theorem leaveSound_kept {s t : State} (h : step s = .next t) (hs : s.leaveSound = true) (hhold : s.holdSound = true) :
    t.leaveSound = true := by
  rw [State.leaveSound_iff] at *
  have hwaiting : ∀ (u : State) q, u.Leaving u.link.owners → (u.withPending q).Leaving (u.withPending q).link.owners :=
    fun _ _ h => h
  have hlapse : ∀ (u : State) dt, u.Leaving u.link.owners → (u.elapse dt).Leaving (u.elapse dt).link.owners := by
    intro u dt hu
    simpa [State.Leaving, LinkUnit.owners] using hu
  have hexec : ∀ c (u : State), u.holdSound = true → u.Leaving u.link.owners → exec c u = .next t →
      t.Leaving t.link.owners := by
    intro c u hhold hu he
    rw [exec_eq_next_iff.mp he]
    have heffect : (effect c (u.elapse c.elapsed)).Leaving (effect c (u.elapse c.elapsed)).link.owners := by
      cases hh : u.ctrl.hold with
      | none =>
        rcases effect_acts c (u.elapse c.elapsed) with hrow | ⟨k, -, e, -⟩ | ⟨x, y, hx, -⟩ | ⟨x, dt, straps, normal, hx, -⟩
        · exact hrow.keep (P := fun s => s.Leaving s.link.owners) (fun _ _ ha => leaving_duty.act ha trivial) (hlapse _ _ hu)
        · rw [e]; exact State.held_leaving ..
        · simp [hh] at hx
        · simp [hh] at hx
      | some x =>
        rw [State.elapse_held _ hh, State.held_of_sound hh hhold]
        rcases effect_held c x u.ctrl.resetCause u.pins u.pending with ⟨p, e⟩ | ⟨y, e⟩ | ⟨dt, straps, normal, rfl⟩
        · rw [e]; exact State.held_leaving ..
        · rw [e]; exact State.held_leaving ..
        · have e : effect (.resetRelease dt straps normal) (State.held x u.ctrl.resetCause u.pins u.pending) =
              (State.held x u.ctrl.resetCause u.pins u.pending).resetRelease straps normal := rfl
          rw [e, State.resetRelease_eq (h := x) rfl]
          exact Nat.zero_le _
    exact heffect
  rcases step_cases h with ⟨c, rest, -, he⟩ | ⟨c, -, -, he⟩ | ⟨-, -, rfl⟩
  · exact hexec c (s.withPending rest) hhold (hwaiting _ _ hs) he
  · exact hexec c s hhold hs he
  · exact hlapse _ _ hs

end Sys2Proof.Machine

namespace Sys2Proof

-- one declaration after the other: fewer threads at a time
set_option Elab.async false

open Machine

/-- Settles O43: act by act, the reply list and the declined list as duties of the frames without an outcome. -/
theorem linkKept : Obligations.LinkKept := by
  unfold Obligations.LinkKept
  exact fun s t h => ⟨receiverSound_kept h, queueSound_kept h, queueOrdered_kept h, repliesSound_kept h, declinedSound_kept h⟩

/-- Settles O19: change by change, the LEAVE as a duty of the frames without an outcome. -/
theorem lifecycleKept : Obligations.LifecycleKept := by
  unfold Obligations.LifecycleKept
  exact fun s t h =>
    ⟨restSound_kept h, controllerSound_kept h, monitorSound_kept h, strobesSound_kept h, leaveSound_kept h⟩

end Sys2Proof

/-!
PROOFS. The class 0 frames of the origin parts act by act (R28): the frames are followed as their owners and kinds.
-/

namespace Sys2Proof.Machine

-- one declaration after the other: fewer threads at a time
set_option Elab.async false

/-! ### What is due -/

/-- A frame as its owner and its kind. -/
def QFrame.duty (f : QFrame) : Owner × Nat := (f.owner, f.content.kind)

/-- The frames the link unit holds, as their owners and kinds. -/
def LinkUnit.duties (l : LinkUnit) : List (Owner × Nat) := l.frames.map QFrame.duty

/-- An entry's class 0 frames. -/
def isUrgent (uid : Nat) (x : Owner × Nat) : Bool := decide (x.1 = .entry uid) && decide (x.2 ≤ 2)

/-- The kinds of an entry's class 0 frames. -/
def urgentKinds (D : List (Owner × Nat)) (uid : Nat) : List Nat := (D.filter (isUrgent uid)).map Prod.snd

/-- R28: the kinds of the class 0 frames that the state of an origin part asks for. -/
def dueKinds : Option OriginState → List Nat
  | some .calling => [0]
  | some .closing => [1]
  | some .collecting | none => []

theorem dueKinds_le {o : Option OriginState} {k : Nat} (h : k ∈ dueKinds o) : k ≤ 1 := by
  unfold dueKinds at h
  split at h <;> simp at h <;> omega

/-- R6, R28: every entry has the class 0 frames of its origin part, and no frame names an entry that is yet to come. -/
structure State.Owning (s : State) (D : List (Owner × Nat)) : Prop where
  due : ∀ p ∈ s.cap.table.map Entry.stance, (urgentKinds D p.1).Perm (dueKinds p.2)
  given : ∀ uid k, (Owner.entry uid, k) ∈ D → uid < s.cap.nextUid

/-- R149: a frame left to finish belongs to no entry still held. -/
def State.Loose (s : State) : Prop :=
  ∀ fl, s.link.flight = some fl → fl.finishing = true → ∀ e ∈ s.cap.table, fl.frame.owner ≠ .entry e.uid

theorem Content.cls_eq_zero_iff (c : Content) : c.cls = 0 ↔ c.kind ≤ 2 := by
  cases c <;> simp [Content.cls, Content.kind]

theorem Content.isCall_iff (c : Content) : c.isCall = true ↔ c.kind = 0 := by
  cases c <;> simp [Content.isCall, Content.kind]

theorem isUrgent_duty (uid : Nat) (f : QFrame) :
    isUrgent uid f.duty = (decide (f.owner = .entry uid) && decide (f.content.cls = 0)) := by
  rw [isUrgent, QFrame.duty, decide_eq_decide.mpr f.content.cls_eq_zero_iff]

theorem State.originFrames_iff (s : State) (e : Entry) :
    s.originFrames e = true ↔ (urgentKinds s.link.duties e.uid).Perm (dueKinds (e.origin.map Origin.state)) := by
  have hkinds : urgentKinds s.link.duties e.uid = (s.urgentFrames e.uid).map fun f => f.content.kind := by
    rw [urgentKinds, LinkUnit.duties, List.filter_map, List.map_map, State.urgentFrames]
    congr 1
    exact List.filter_congr fun f _ => isUrgent_duty e.uid f
  rw [hkinds, State.originFrames]
  rcases e.origin.map Origin.state with _ | (_ | _ | _) <;> rcases s.urgentFrames e.uid with _ | ⟨f, _ | ⟨g, rest⟩⟩ <;>
    simp [dueKinds, Content.isCall_iff]
  cases f.content <;> simp [Content.kind]

theorem State.ownersSound_iff (s : State) : s.ownersSound = true ↔ s.Owning s.link.duties ∧ s.Loose := by
  have htable : (s.cap.table.all fun e => s.originFrames e) = true ↔
      ∀ p ∈ s.cap.table.map Entry.stance, (urgentKinds s.link.duties p.1).Perm (dueKinds p.2) := by
    simp only [List.all_eq_true, State.originFrames_iff, List.forall_mem_map, Entry.stance]
  simp only [State.ownersSound, Bool.and_eq_true]
  constructor
  · rintro ⟨⟨ht, hg⟩, hf⟩
    refine ⟨⟨htable.mp ht, fun uid k hx => ?_⟩, fun fl hfl hfin e he howner => ?_⟩
    · obtain ⟨f, hmem, heq⟩ := List.mem_map.mp hx
      have howner : f.owner = .entry uid := congrArg Prod.fst heq
      simpa [howner] using List.all_eq_true.mp hg f hmem
    · simp only [hfl, hfin, Bool.not_true, Bool.false_or, List.all_eq_true, decide_eq_true_eq] at hf
      exact hf e he howner
  · rintro ⟨⟨hdue, hgiven⟩, hloose⟩
    refine ⟨⟨htable.mpr hdue, List.all_eq_true.mpr fun f hf => ?_⟩, ?_⟩
    · cases ho : f.owner with
      | entry uid => simpa using hgiven uid f.content.kind (List.mem_map.mpr ⟨f, hf, by rw [QFrame.duty, ho]⟩)
      | declined _ | time | reply _ | controller => rfl
    · cases hfl : s.link.flight with
      | none => rfl
      | some fl =>
        cases hfin : fl.finishing with
        | false => simp [hfin]
        | true => simpa [hfin] using hloose fl hfl hfin

/-! ### How the frames due change -/

theorem urgentKinds_perm {D D' : List (Owner × Nat)} (h : D.Perm D') (uid : Nat) :
    (urgentKinds D uid).Perm (urgentKinds D' uid) := (h.filter _).map _

theorem urgentKinds_cons_of_not {x : Owner × Nat} {uid : Nat} (h : isUrgent uid x = false) (D : List (Owner × Nat)) :
    urgentKinds (x :: D) uid = urgentKinds D uid := by rw [urgentKinds, List.filter_cons_of_neg (by simp [h]), urgentKinds]

theorem urgentKinds_cons_of {x : Owner × Nat} {uid : Nat} (h : isUrgent uid x = true) (D : List (Owner × Nat)) :
    urgentKinds (x :: D) uid = x.2 :: urgentKinds D uid := by
  rw [urgentKinds, List.filter_cons_of_pos h, List.map_cons, urgentKinds]

theorem urgentKinds_append (D D' : List (Owner × Nat)) (uid : Nat) :
    urgentKinds (D ++ D') uid = urgentKinds D uid ++ urgentKinds D' uid := by simp [urgentKinds]

theorem LinkUnit.duties_withdraw (l : LinkUnit) (o : Owner) :
    (l.withdraw o).duties = (l.flight.map Flight.frame).toList.map QFrame.duty ++
      (l.queue.map QFrame.duty).filter fun x => decide (x.1 ≠ o) := by
  rw [LinkUnit.duties, LinkUnit.frames, List.map_append, List.filter_map]
  rfl

/-- Withdrawing an owner's frames leaves those of another. -/
theorem urgentKinds_withdraw (l : LinkUnit) {o : Owner} {uid : Nat} (h : o ≠ .entry uid) :
    urgentKinds (l.withdraw o).duties uid = urgentKinds l.duties uid := by
  rw [LinkUnit.duties_withdraw, urgentKinds_append, LinkUnit.duties, LinkUnit.frames, List.map_append, urgentKinds_append]
  congr 1
  rw [urgentKinds, urgentKinds, List.filter_filter]
  congr 1
  refine List.filter_congr fun x _ => ?_
  cases hx : isUrgent uid x with
  | false => rfl
  | true =>
    simp only [isUrgent, Bool.and_eq_true, decide_eq_true_eq] at hx
    simp [hx.1, Ne.symm h]

theorem LinkUnit.Shrunk.duties {l l' : LinkUnit} (h : l.Shrunk l') : l'.duties.Sublist l.duties := h.frames.map _

theorem State.Owning.perm {s : State} {D D' : List (Owner × Nat)} (hp : D.Perm D') (h : s.Owning D) : s.Owning D' :=
  ⟨fun p hp' => (urgentKinds_perm hp.symm _).trans (h.due p hp'), fun uid k hx => h.given uid k (hp.symm.subset hx)⟩

/-- Entries may go and frames of none of those still held. -/
theorem State.Owning.mono {s t : State} {D D' : List (Owner × Nat)} (h : s.Owning D)
    (ht : ∀ p ∈ t.cap.table.map Entry.stance, p ∈ s.cap.table.map Entry.stance ∧ (urgentKinds D' p.1).Perm (urgentKinds D p.1))
    (hD : ∀ uid k, (Owner.entry uid, k) ∈ D' → (Owner.entry uid, k) ∈ D) (hn : s.cap.nextUid ≤ t.cap.nextUid) : t.Owning D' :=
  ⟨fun p hp => (ht p hp).2.trans (h.due p (ht p hp).1), fun uid k hx => (h.given uid k (hD uid k hx)).trans_le hn⟩

theorem State.Owning.of_same {s t : State} {D : List (Owner × Nat)} (h : s.Owning D)
    (ht : t.cap.table.map Entry.stance = s.cap.table.map Entry.stance) (hn : t.cap.nextUid = s.cap.nextUid) : t.Owning D :=
  h.mono (fun _ hp => ⟨ht ▸ hp, .refl _⟩) (fun _ _ => id) hn.ge

/-- A frame of no entry still held, or none of class 0, may go. -/
theorem State.Owning.drop {s : State} {x : Owner × Nat} {D : List (Owner × Nat)}
    (hx : ∀ p ∈ s.cap.table.map Entry.stance, isUrgent p.1 x = false) (h : s.Owning (x :: D)) : s.Owning D :=
  h.mono (fun p hp => ⟨hp, by rw [urgentKinds_cons_of_not (hx p hp)]⟩) (fun _ _ => List.mem_cons_of_mem _) (le_refl _)

theorem State.Owning.add {s : State} {x : Owner × Nat} {D : List (Owner × Nat)} (hx : ∀ uid, isUrgent uid x = false)
    (hgiven : ∀ uid, x.1 = .entry uid → uid < s.cap.nextUid) (h : s.Owning D) : s.Owning (x :: D) := by
  refine ⟨fun p hp => by rw [urgentKinds_cons_of_not (hx _)]; exact h.due p hp, fun uid k hmem => ?_⟩
  rcases List.mem_cons.mp hmem with he | hmem
  · exact hgiven uid (by rw [← he])
  · exact h.given uid k hmem

/-- A frame of class 0 that an entry still held has is one due. -/
theorem State.Owning.kind_mem {s : State} {x : Owner × Nat} {D : List (Owner × Nat)} (h : s.Owning (x :: D))
    {p : Nat × Option OriginState} (hp : p ∈ s.cap.table.map Entry.stance) (hx : isUrgent p.1 x = true) :
    dueKinds p.2 = [x.2] ∧ urgentKinds D p.1 = [] := by
  have hdue := h.due p hp
  rw [urgentKinds_cons_of hx] at hdue
  have hlen : (dueKinds p.2).length ≤ 1 := by
    rcases p.2 with _ | (_ | _ | _) <;> simp [dueKinds]
  obtain ⟨y, hy⟩ : ∃ y, dueKinds p.2 = [y] := by
    have := hdue.length_eq
    rw [List.length_cons] at this
    exact List.length_eq_one_iff.mp (by omega)
  rw [hy] at hdue ⊢
  have := List.perm_singleton.mp hdue
  simp only [List.cons.injEq] at this
  exact ⟨by rw [this.1], this.2⟩

/-- R4, R6: an entry is freed with its frames not in flight. -/
theorem State.Owning.free {s : State} {A H : List (Owner × Nat)} {uid : Nat} (h : s.Owning (A ++ (s.link.duties ++ H))) :
    (s.freeEntry uid).Owning (A ++ ((s.freeEntry uid).link.duties ++ H)) := by
  have hlink : (s.freeEntry uid).link = s.link.withdraw (.entry uid) := rfl
  refine h.mono (fun p hp => ?_) (fun u k hx => ?_) (le_refl _)
  · obtain ⟨e, he, rfl⟩ := List.mem_map.mp hp
    simp only [State.freeEntry_table, List.mem_filter, bne_iff_ne, ne_eq] at he
    refine ⟨List.mem_map_of_mem he.1, ?_⟩
    rw [hlink, urgentKinds_append, urgentKinds_append, urgentKinds_append, urgentKinds_append,
      urgentKinds_withdraw _ (by simpa [Entry.stance] using Ne.symm he.2)]
  · rw [hlink] at hx
    simp only [List.mem_append] at hx ⊢
    exact hx.imp_right (Or.imp_left fun hx => (s.link.withdraw_shrunk _).duties.subset hx)

/-! ### A frame gets its outcome -/

/-- R145: what the outcome of a frame that is lost does to the entries and frames. -/
theorem State.lose_cases (s : State) (f : QFrame) (o : Loss) :
    ((s.lose f o).cap.table.map Entry.stance = s.cap.table.map Entry.stance ∧ (s.lose f o).cap.nextUid = s.cap.nextUid ∧
      (s.lose f o).link = s.link ∧
      ∀ uid, f.owner = .entry uid → f.content.kind ≤ 1 → o = .withdrawn ∨ s.entry? uid = none) ∨
    ∃ uid, f.owner = .entry uid ∧ (s.lose f o).cap = (s.freeEntry uid).cap ∧ (s.lose f o).link = (s.freeEntry uid).link := by
  obtain ⟨owner, content, age, attempts, started⟩ := f
  cases owner with
  | entry uid =>
    cases content with
    | call c =>
      simp only [State.lose]
      split
      · exact .inl ⟨rfl, rfl, rfl, fun _ _ _ => .inl (by assumption)⟩
      · unfold State.callLost
        split
        · exact .inl ⟨rfl, rfl, rfl, fun u hu _ => by cases hu; exact .inr (by assumption)⟩
        · split <;> exact .inr ⟨uid, rfl, rfl, rfl⟩
    | close c =>
      simp only [State.lose]
      split
      · exact .inl ⟨rfl, rfl, rfl, fun _ _ _ => .inl (by assumption)⟩
      · exact .inr ⟨uid, rfl, rfl, rfl⟩
    | report c =>
      refine .inl ?_
      have hkind : ∀ u, Owner.entry uid = .entry u → (Content.report c).kind ≤ 1 → o = .withdrawn ∨ s.entry? u = none :=
        fun _ _ hk => by simp [Content.kind] at hk
      simp only [State.lose]
      split
      · exact ⟨rfl, rfl, rfl, hkind⟩
      · refine ⟨(SameBooks.of_onEntry s uid Entry.abandon fun e => ?_).table, rfl, rfl, hkind⟩
        unfold Entry.abandon
        split <;> rfl
    | leave _ | beacon _ | reply _ _ => exact .inl ⟨rfl, rfl, rfl, fun _ _ hk => by simp [Content.kind] at hk⟩
  | declined tag | time | reply id => exact .inl ⟨rfl, rfl, rfl, fun _ hu => by cases hu⟩
  | controller =>
    refine .inl ?_
    simp only [State.lose]
    split
    · exact ⟨rfl, rfl, rfl, fun _ hu => by cases hu⟩
    · rcases s.leaveEnded_cases with e | ⟨-, -, e⟩ | ⟨-, -, e⟩ <;> rw [e] <;>
        exact ⟨rfl, rfl, rfl, fun _ hu => by cases hu⟩

theorem State.lose_nextUid (s : State) (f : QFrame) (o : Loss) : (s.lose f o).cap.nextUid = s.cap.nextUid := by
  rcases s.lose_cases f o with ⟨-, e, -⟩ | ⟨uid, -, e, -⟩
  · exact e
  · rw [e]; rfl

theorem State.lose_flight (s : State) (f : QFrame) (o : Loss) : (s.lose f o).link.flight = s.link.flight := by
  rcases s.lose_cases f o with ⟨-, -, e, -⟩ | ⟨uid, -, -, e⟩ <;> rw [e]
  rfl

/-- R145: no outcome makes an entry. -/
theorem State.lose_uids (s : State) (f : QFrame) (o : Loss) {e : Entry} (he : e ∈ (s.lose f o).cap.table) :
    ∃ e' ∈ s.cap.table, e'.uid = e.uid := by
  rcases s.lose_cases f o with ⟨htable, -⟩ | ⟨uid, -, hcap, -⟩
  · have := List.mem_map_of_mem (f := Entry.stance) he
    rw [htable] at this
    obtain ⟨e', he', heq⟩ := List.mem_map.mp this
    exact ⟨e', he', congrArg Prod.fst heq⟩
  · rw [hcap] at he
    exact ⟨e, List.mem_of_mem_filter he, rfl⟩

theorem State.entry?_ne_none {s : State} {e : Entry} (he : e ∈ s.cap.table) : s.entry? e.uid ≠ none := by
  intro h
  have := List.find?_eq_none.mp h e he
  simp at this

/-- R28, R145: a frame that gets its outcome leaves those due, or its entry is freed. -/
theorem State.Owning.lose {s : State} {f : QFrame} {o : Loss} {H : List (Owner × Nat)}
    (ho : o = .withdrawn → f.content.cls = 0 → ∀ e ∈ s.cap.table, f.owner ≠ .entry e.uid)
    (h : s.Owning (f.duty :: (s.link.duties ++ H))) : (s.lose f o).Owning ((s.lose f o).link.duties ++ H) := by
  rcases s.lose_cases f o with ⟨htable, hn, hlink, hkept⟩ | ⟨uid, howner, hcap, hlink⟩
  · rw [hlink]
    refine State.Owning.of_same (s := s) (h.drop fun p hp => ?_) htable hn
    cases hurgent : isUrgent p.1 f.duty with
    | false => rfl
    | true =>
      have hdue := (h.kind_mem hp hurgent).1
      obtain ⟨e, he, rfl⟩ := List.mem_map.mp hp
      simp only [isUrgent_duty, Bool.and_eq_true, decide_eq_true_eq] at hurgent
      have hkind : f.content.kind ≤ 1 := dueKinds_le (hdue ▸ List.mem_singleton_self _)
      rcases hkept _ hurgent.1 hkind with hw | hnone
      · exact absurd hurgent.1 (ho hw hurgent.2 e he)
      · exact absurd hnone (State.entry?_ne_none he)
  · have hfree := State.Owning.free (A := [f.duty]) (uid := uid) h
    rw [hlink]
    refine State.Owning.of_same (s := s.freeEntry uid) (hfree.drop fun p hp => ?_) (by rw [hcap]) (by rw [hcap])
    obtain ⟨e, he, rfl⟩ := List.mem_map.mp hp
    simp only [State.freeEntry_table, List.mem_filter, bne_iff_ne, ne_eq] at he
    simp [isUrgent, QFrame.duty, howner, Entry.stance, Ne.symm he.2]

theorem State.Loose.mono {s t : State} (h : s.Loose) (hf : t.link.flight = s.link.flight)
    (ht : ∀ e ∈ t.cap.table, ∃ e' ∈ s.cap.table, e'.uid = e.uid) : t.Loose := by
  intro fl hfl hfin e he howner
  obtain ⟨e', he', heq⟩ := ht e he
  exact h fl (hf ▸ hfl) hfin e' he' (heq ▸ howner)

theorem State.Loose.lose {s : State} (h : s.Loose) (f : QFrame) (o : Loss) : (s.lose f o).Loose :=
  h.mono (s.lose_flight f o) fun _ => s.lose_uids f o

theorem State.Loose.of_unflown {s : State} (h : s.link.flight = none) : s.Loose := fun fl hfl => by rw [h] at hfl; cases hfl

/-! ### The queue emptied (R149) -/

/-- The table is empty, and names have been given out up to `n`. -/
def State.Bare (s : State) (n : Nat) : Prop := s.cap.table = [] ∧ s.cap.nextUid = n

theorem State.Bare.lose {s : State} {n : Nat} (h : s.Bare n) (f : QFrame) (o : Loss) : (s.lose f o).Bare n := by
  refine ⟨List.eq_nil_iff_forall_not_mem.mpr fun e he => ?_, (s.lose_nextUid f o).trans h.2⟩
  obtain ⟨e', he', -⟩ := s.lose_uids f o he
  rw [h.1] at he'
  cases he'

theorem State.Bare.foldl_lose {s : State} {n : Nat} (h : s.Bare n) (l : List QFrame) (o : Loss) :
    (l.foldl (fun s f => s.lose f o) s).Bare n := by
  induction l generalizing s with
  | nil => exact h
  | cons f rest ih => exact ih (h.lose f o)

theorem State.Bare.flushLink {s : State} {n : Nat} (h : s.Bare n) : s.flushLink.Bare n := by
  have hqueue : (s.link.queue.foldl (fun s f => s.lose f .withdrawn) (s.withLink s.link.flushed)).Bare n :=
    State.Bare.foldl_lose (s := s.withLink s.link.flushed) h _ _
  rw [State.flushLink_eq]
  cases s.link.flight with
  | none => exact hqueue
  | some fl =>
    dsimp only
    split
    · exact hqueue
    · exact hqueue.lose _ _

/-- With the table empty no frame is due. -/
theorem State.Bare.owned {s t : State} {D D' : List (Owner × Nat)} (h : t.Bare s.cap.nextUid) (hs : s.Owning D)
    (hD : D'.Sublist D) : t.Owning D' ∧ t.Loose := by
  refine ⟨⟨by simp [h.1], fun uid k hx => h.2 ▸ hs.given uid k (hD.subset hx)⟩, fun fl _ _ e he => ?_⟩
  rw [h.1] at he
  cases he

/-! ### A frame is offered -/

theorem LinkUnit.Ordered.remove_duties {l : LinkUnit} (h : l.Ordered) {v : QFrame} (hv : v ∈ l.queue) :
    l.duties.Perm (v.duty :: (l.remove v.age).duties) := (h.remove_frames hv).map _

theorem LinkUnit.enqueue_duties (l : LinkUnit) (o : Owner) (c : Content) :
    (l.enqueue o c).duties.Perm ((o, c.kind) :: l.duties) := (l.enqueue_frames o c).map _

theorem LinkUnit.Ordered.replace_duties {l : LinkUnit} (h : l.Ordered) {old : QFrame} (hold : old ∈ l.queue) (o : Owner)
    (c : Content) : (old.duty :: (l.replace old o c).duties).Perm ((o, c.kind) :: l.duties) := (h.replace_frames hold o c).map _

/-- R143: only frames of the classes 2 and 3 are replaced. -/
theorem LinkUnit.predecessor_cls {l : LinkUnit} {c : Content} {old : QFrame} (h : l.predecessor c = some old) :
    old.content.cls ≠ 0 := by
  rw [Content.cls_eq_of_kind (LinkUnit.predecessor_kind h)]
  cases c <;> simp [LinkUnit.predecessor, Content.cls] at *

/-- R143: an offered frame is due, or it gets its outcome at once; those that make room for it are none due. -/
theorem State.Owning.offer {s : State} {o : Owner} {c : Content} (hl : s.link.Ordered)
    (h : s.Owning ((o, c.kind) :: s.link.duties)) : (s.offer o c).Owning (s.offer o c).link.duties := by
  have hlose : ∀ {u : State} {f x}, (x = .withdrawn → f.content.cls ≠ 0) → u.Owning (f.duty :: u.link.duties) →
      (u.lose f x).Owning (u.lose f x).link.duties := by
    intro u f x hx hu
    simpa using State.Owning.lose (H := []) (o := x) (fun he hc => absurd hc (hx he)) (by simpa using hu)
  rcases s.offer_cases o c with ⟨old, hold, hp, e⟩ | ⟨-, -, e⟩ | ⟨v, hv, -, -, -, -, e⟩ | ⟨-, -, -, e⟩ <;> rw [e]
  · exact hlose (fun _ => LinkUnit.predecessor_cls hp) (State.Owning.of_same (s := s) (h.perm (hl.replace_duties hold o c).symm) rfl rfl)
  · exact State.Owning.of_same (s := s) (h.perm (s.link.enqueue_duties o c).symm) rfl rfl
  · have hremoved : (s.withLink (s.link.remove v.age)).Owning
        (v.duty :: ((s.link.remove v.age).duties ++ [(o, c.kind)])) := by
      refine State.Owning.of_same (s := s) (h.perm ?_) rfl rfl
      exact ((hl.remove_duties hv).cons _).trans ((List.Perm.swap ..).trans
        (.cons _ (List.perm_append_singleton _ _).symm))
    have hlost := State.Owning.lose (o := .evicted) (by simp) hremoved
    refine State.Owning.of_same (s := (s.withLink (s.link.remove v.age)).lose v .evicted) (hlost.perm ?_) rfl rfl
    exact (List.perm_append_singleton _ _).trans (LinkUnit.enqueue_duties _ o c).symm
  · exact hlose (by simp) h

theorem State.Loose.offer {s : State} (h : s.Loose) (o : Owner) (c : Content) : (s.offer o c).Loose := by
  have hwith : ∀ {u : State} {l : LinkUnit}, l.flight = u.link.flight → u.Loose → (u.withLink l).Loose :=
    fun hf hu => hu.mono hf fun e he => ⟨e, he, rfl⟩
  rcases s.offer_cases o c with ⟨old, -, -, e⟩ | ⟨-, -, e⟩ | ⟨v, -, -, -, -, -, e⟩ | ⟨-, -, -, e⟩ <;> rw [e]
  · exact (hwith (u := s) (by rfl) h).lose _ _
  · exact hwith rfl h
  · exact hwith rfl ((hwith (u := s) (l := s.link.remove v.age) rfl h).lose _ _)
  · exact h.lose _ _

/-! ### Act by act -/

/-- R6, R28, R149: the frames of the origin parts, as `State.ownersSound` says. -/
def State.Owned (s : State) : Prop := s.Owning s.link.duties ∧ s.Loose

theorem State.Owned.offer {s : State} {o : Owner} {c : Content} (h : s.Owned) (hl : s.link.Ordered)
    (hx : ∀ uid, isUrgent uid (o, c.kind) = false) (hgiven : ∀ uid, o = .entry uid → uid < s.cap.nextUid) :
    (s.offer o c).Owned := ⟨(h.1.add hx hgiven).offer hl, h.2.offer o c⟩

theorem State.Owned.free {s : State} (h : s.Owned) (uid : Nat) : (s.freeEntry uid).Owned :=
  ⟨by simpa using State.Owning.free (A := []) (H := []) (uid := uid) (by simpa using h.1),
    h.2.mono rfl fun e he => ⟨e, (List.mem_filter.mp he).1, rfl⟩⟩

theorem State.Owned.makeRoom {s t : State} (hroom : s.makeRoom = some t) (h : s.Owned) : t.Owned := by
  rcases s.makeRoom_cases with ⟨_, e⟩ | ⟨_, _, _, _, _, e⟩ | ⟨_, _, e⟩ <;> rw [e] at hroom <;> cases hroom
  · exact h
  · exact h.free _

theorem SameBooks.duties {s t : State} (h : SameBooks s t) : t.link.duties = s.link.duties := by
  rw [LinkUnit.duties, LinkUnit.duties, LinkUnit.frames_eq h.queue h.flight]

theorem SameBooks.uids {s t : State} (h : SameBooks s t) {e : Entry} (he : e ∈ t.cap.table) :
    ∃ e' ∈ s.cap.table, e'.uid = e.uid := by
  have := List.mem_map_of_mem (f := Entry.stance) he
  rw [h.table] at this
  obtain ⟨e', he', heq⟩ := List.mem_map.mp this
  exact ⟨e', he', congrArg Prod.fst heq⟩

theorem SameBooks.owned {s t : State} (h : SameBooks s t) (hs : s.Owned) : t.Owned :=
  ⟨by rw [h.duties]; exact hs.1.of_same h.table h.nextUid, hs.2.mono h.flight fun _ => h.uids⟩

theorem State.unflown_duties {s : State} {fl : Flight} (h : s.link.flight = some fl) :
    s.link.duties = fl.frame.duty :: s.unflown.link.duties := by
  simp [LinkUnit.duties, LinkUnit.frames, State.unflown, h]

/-- What a change of one entry leaves to show. -/
theorem State.Owning.onEntry {s : State} {uid : Nat} {f : Entry → Entry} {D D' : List (Owner × Nat)} (h : s.Owning D)
    (hf : ∀ e ∈ s.cap.table, e.uid = uid → (f e).uid = uid ∧
      (urgentKinds D' uid).Perm (dueKinds ((f e).origin.map Origin.state)))
    (hother : ∀ u, u ≠ uid → urgentKinds D' u = urgentKinds D u)
    (hD : ∀ u k, (Owner.entry u, k) ∈ D' → (Owner.entry u, k) ∈ D ∨ u = uid ∧ uid < s.cap.nextUid) :
    (s.onEntry uid f).Owning D' := by
  refine ⟨fun p hp => ?_, fun u k hx => ?_⟩
  · obtain ⟨e', he', rfl⟩ := List.mem_map.mp hp
    obtain ⟨e, he, rfl⟩ := List.mem_map.mp he'
    split
    · obtain ⟨huid, hdue⟩ := hf e he (by assumption)
      rw [Entry.stance, huid]
      exact hdue
    · rw [hother _ (by assumption)]
      exact h.due _ (List.mem_map_of_mem he)
  · rcases hD u k hx with hx | ⟨rfl, hlt⟩
    · exact h.given u k hx
    · exact hlt

theorem State.Loose.onEntry {s : State} (h : s.Loose) (uid : Nat) {f : Entry → Entry} (hf : ∀ e, (f e).uid = e.uid) :
    (s.onEntry uid f).Loose := by
  refine h.mono rfl fun e he => ?_
  obtain ⟨e', he', rfl⟩ := List.mem_map.mp he
  exact ⟨e', he', by split <;> simp [hf]⟩

theorem isUrgent_entry (u uid k : Nat) : isUrgent u (.entry uid, k) = (decide (u = uid) && decide (k ≤ 2)) := by
  simp [isUrgent, eq_comm]

/-- R42, R43: the collection ends, and a CLOSE is due. -/
theorem State.Owned.beginClosing {s : State} {e : Entry} {o : Origin} {uid : Nat} (h : s.Owned) (hl : s.link.Ordered)
    (huids : s.uidsSound = true) (he : s.entry? uid = some e) (ho : e.origin = some o) (hc : o.state = .collecting) :
    (s.beginClosing uid).Owned := by
  obtain ⟨hmem, huid⟩ := State.entry?_eq_some he
  have hgiven : uid < s.cap.nextUid := huid ▸ (s.uidsSound_iff.mp huids).2 e hmem
  have hnone : urgentKinds s.link.duties uid = [] := by
    have := h.1.due _ (List.mem_map_of_mem hmem)
    rw [Entry.stance, ho, huid, Option.map_some, hc] at this
    exact List.perm_nil.mp this
  have hdue : (s.onEntry uid fun e => e.onOrigin fun o => { o with state := .closing }).Owning
      ((.entry uid, 1) :: s.link.duties) := by
    refine h.1.onEntry (fun e' he' huid' => ⟨huid', ?_⟩) (fun u hu => ?_) fun u k hx => ?_
    · have hsame : e' = e := Option.some.inj ((State.entry?_of_mem huids he').symm.trans (huid' ▸ he))
      rw [urgentKinds_cons_of (by simp [isUrgent_entry]), hnone, hsame, Entry.onOrigin, ho]
      exact .refl _
    · exact urgentKinds_cons_of_not (by simp [isUrgent_entry, hu]) _
    · rcases List.mem_cons.mp hx with he | hx
      · cases he; exact .inr ⟨rfl, hgiven⟩
      · exact .inl hx
  exact ⟨State.Owning.offer (c := .close none) hl hdue,
    (h.2.onEntry uid (f := fun e => e.onOrigin fun o => { o with state := .closing }) fun _ => rfl).offer _ _⟩

/-- R37: a CALL sent is due no more. -/
theorem State.Owning.callSent {s : State} {uid : Nat} {D : List (Owner × Nat)} (h : s.Owning ((.entry uid, 0) :: D)) :
    (s.callSent uid).Owning D := by
  refine h.onEntry (fun e he huid => ⟨huid, ?_⟩) (fun u hu => ?_) fun u k hx => .inl (List.mem_cons_of_mem _ hx)
  · obtain ⟨hdue, hrest⟩ := h.kind_mem (List.mem_map_of_mem he) (by simp [isUrgent_entry, Entry.stance, huid])
    rw [Entry.stance, huid] at hrest
    rw [hrest]
    cases ho : e.origin with
    | none => simp [Entry.onOrigin, ho, dueKinds]
    | some o =>
      have hcalling : o.state = .calling := by
        rw [Entry.stance, ho, Option.map_some] at hdue
        cases hs : o.state <;> simp [hs, dueKinds] at hdue
        rfl
      simp [Entry.onOrigin, ho, hcalling, dueKinds]
  · exact (urgentKinds_cons_of_not (by simp [isUrgent_entry, hu]) _).symm

theorem LinkUnit.duties_withdrawCall (l : LinkUnit) (uid : Nat) :
    (l.withdrawCall (.entry uid)).duties = (l.flight.map Flight.frame).toList.map QFrame.duty ++
      (l.queue.map QFrame.duty).filter fun x => !(isUrgent uid x && x.2 == 0) := by
  rw [LinkUnit.duties, LinkUnit.frames, List.map_append, List.filter_map]
  congr 2
  refine List.filter_congr fun f _ => ?_
  have hcall : f.content.isCall = (f.content.kind == 0) := by cases f.content <;> rfl
  cases hk : f.content.kind == 0 <;> simp_all [isUrgent, QFrame.duty]

/-- R9: with its CALL waiting, an entry has no other frame of class 0; the CALL withdrawn, it has none. -/
theorem urgentKinds_withdrawCall {l : LinkUnit} {uid : Nat} (hq : l.callQueued (.entry uid) = true)
    (hdue : urgentKinds l.duties uid = [0]) : urgentKinds (l.withdrawCall (.entry uid)).duties uid = [] := by
  obtain ⟨f, hf, hcall⟩ := List.any_eq_true.mp hq
  simp only [Bool.and_eq_true, decide_eq_true_eq, Content.isCall_iff] at hcall
  have hmem : 0 ∈ urgentKinds (l.queue.map QFrame.duty) uid := by
    refine List.mem_map.mpr ⟨f.duty, List.mem_filter.mpr ⟨List.mem_map_of_mem hf, ?_⟩, hcall.2⟩
    simp [isUrgent, QFrame.duty, hcall]
  rw [LinkUnit.duties, LinkUnit.frames, List.map_append, urgentKinds_append] at hdue
  rw [LinkUnit.duties_withdrawCall, urgentKinds_append]
  obtain ⟨hflight, hqueue⟩ : urgentKinds ((l.flight.map Flight.frame).toList.map QFrame.duty) uid = [] ∧
      urgentKinds (l.queue.map QFrame.duty) uid = [0] := by
    rcases List.append_eq_singleton_iff.mp hdue with h | ⟨-, h⟩
    · exact h
    · rw [h] at hmem; cases hmem
  rw [hflight, List.nil_append, urgentKinds, List.map_eq_nil_iff, List.filter_filter, List.filter_eq_nil_iff]
  intro x hx hboth
  simp only [Bool.and_eq_true, Bool.not_eq_true', Bool.and_eq_false_iff, beq_eq_false_iff_ne] at hboth
  have hzero : x.2 ∈ urgentKinds (l.queue.map QFrame.duty) uid :=
    List.mem_map_of_mem (List.mem_filter.mpr ⟨hx, hboth.1⟩)
  rw [hqueue, List.mem_singleton] at hzero
  rcases hboth.2 with h | h
  · rw [hboth.1] at h; cases h
  · exact h hzero

/-- R9: an own CALL that waits gives way. -/
theorem State.Owned.giveUp {s : State} {e : Entry} (h : s.Owned) (he : e ∈ s.cap.table)
    (hw : s.callWaits e = true) : (s.giveUpCall e).Owned := by
  obtain ⟨hq, hcalling⟩ : s.link.callQueued (.entry e.uid) = true ∧ e.origin.map Origin.state = some .calling := by
    unfold State.callWaits at hw
    cases ho : e.origin with
    | none => simp [ho] at hw
    | some o =>
      simp only [ho, Bool.and_eq_true, decide_eq_true_eq] at hw
      exact ⟨hw.2, by rw [Option.map_some, hw.1]⟩
  have hdue : urgentKinds s.link.duties e.uid = [0] := by
    have := h.1.due _ (List.mem_map_of_mem he)
    rw [Entry.stance, hcalling] at this
    exact List.perm_singleton.mp this
  have hdropped : ((s.withLink (s.link.withdrawCall (.entry e.uid))).onEntry e.uid
      fun e => { e with origin := none }).Owned := by
    refine ⟨State.Owning.onEntry (s := s.withLink (s.link.withdrawCall (.entry e.uid)))
      (State.Owning.of_same (s := s) h.1 rfl rfl) (fun e' _ huid => ⟨huid, ?_⟩) (fun u hu => ?_) fun u k hx => .inl ?_,
      State.Loose.onEntry (h.2.mono rfl fun e he => ⟨e, he, rfl⟩) _ fun _ => rfl⟩
    · exact .of_eq (urgentKinds_withdrawCall hq hdue)
    · rw [State.onEntry_link, State.withLink_link, LinkUnit.duties_withdrawCall, LinkUnit.duties, LinkUnit.frames,
        List.map_append, urgentKinds_append, urgentKinds_append]
      congr 1
      rw [urgentKinds, urgentKinds, List.filter_filter]
      congr 1
      refine List.filter_congr fun x _ => ?_
      cases hx : isUrgent u x with
      | false => rfl
      | true =>
        simp only [isUrgent, Bool.and_eq_true, decide_eq_true_eq] at hx
        simp [isUrgent, hx.1, hu]
    · exact (s.link.withdrawCall_shrunk _).duties.subset hx
  unfold State.giveUpCall
  dsimp only
  split
  · exact hdropped.free _
  · exact hdropped

/-- R14, R31, R35: a new entry has the frames due to it, of which there were none. -/
theorem State.Owned.addEntry {s : State} {e : Entry} (h : s.Owned) (huids : s.uidsSound = true) (huid : e.uid = s.cap.nextUid)
    {D : List (Owner × Nat)} (hdue : (urgentKinds D e.uid).Perm (dueKinds (e.origin.map Origin.state)))
    (hother : ∀ u, u ≠ e.uid → urgentKinds D u = urgentKinds s.link.duties u)
    (hD : ∀ u k, (Owner.entry u, k) ∈ D → (Owner.entry u, k) ∈ s.link.duties ∨ u = e.uid) :
    (s.addEntry e).Owning D ∧ (s.addEntry e).Loose := by
  refine ⟨⟨fun p hp => ?_, fun u k hx => ?_⟩, fun fl hfl hfin x hx howner => ?_⟩
  · simp only [State.addEntry, List.map_append, List.map_cons, List.map_nil, List.mem_append, List.mem_singleton] at hp
    rcases hp with hp | rfl
    · obtain ⟨x, hx, rfl⟩ := List.mem_map.mp hp
      have hlt := (s.uidsSound_iff.mp huids).2 x hx
      rw [hother _ (by simp only [Entry.stance]; omega)]
      exact h.1.due _ hp
    · exact hdue
  · rcases hD u k hx with hx | rfl
    · exact Nat.lt_succ_of_lt (h.1.given u k hx)
    · exact huid ▸ Nat.lt_succ_self _
  · rcases List.mem_append.mp hx with hx | hx
    · exact h.2 fl hfl hfin x hx howner
    · rw [List.mem_singleton] at hx
      have := h.1.given e.uid fl.frame.content.kind ?_
      · omega
      · refine List.mem_map.mpr ⟨fl.frame, ?_, by rw [QFrame.duty, howner, hx]⟩
        have hfl' : s.link.flight = some fl := hfl
        simp [LinkUnit.frames, hfl']

/-- Before an entry joins, no frame names it. -/
theorem State.Owned.none_yet {s : State} (h : s.Owned) : urgentKinds s.link.duties s.cap.nextUid = [] := by
  rw [urgentKinds, List.map_eq_nil_iff, List.filter_eq_nil_iff]
  rintro ⟨o, k⟩ hx hurgent
  simp only [isUrgent, Bool.and_eq_true, decide_eq_true_eq] at hurgent
  have := h.1.given s.cap.nextUid k (hurgent.1 ▸ hx)
  omega

theorem State.uidsSound_makeRoom {s t : State} (h : s.makeRoom = some t) (hs : s.uidsSound = true) : t.uidsSound = true :=
  State.uidsSound_of_sublist (State.makeRoom_table_sublist h) (State.makeRoom_nextUid h) hs

/-- What goes with the origin parts: the names of the entries, the ages of the frames, and an empty table outside JOINED. -/
structure State.Regular (s : State) : Prop where
  uids : s.uidsSound = true
  rest : s.restSound = true
  ordered : s.link.Ordered

theorem Update.regular {round : Prop} {s t : State} (h : Updates round s t) (hu : s.uidsSound = true)
    (hr : s.restSound = true) : t.uidsSound = true ∧ t.restSound = true :=
  h.keep (P := fun s => s.uidsSound = true ∧ s.restSound = true) (fun _ _ hu hs => ⟨hu.uidsSound hs.1, hu.restSound hs.2⟩)
    ⟨hu, hr⟩

theorem Act.regular {round : Prop} {s t : State} (h : Act round s t) (hs : s.Regular) : t.Regular :=
  ⟨(Update.regular h.updates hs.uids hs.rest).1, (Update.regular h.updates hs.uids hs.rest).2, h.kept.ordered hs.ordered⟩

/-- The frames of the origin parts, act by act. -/
theorem Act.owned {round : Prop} {s t : State} (h : Act round s t) (hs : s.Regular) (ho : s.Owned) : t.Owned := by
  have hbare : ∀ {u : State}, u.Bare s.cap.nextUid → s.link.Shrunk u.link → u.Owned := fun hu hl =>
    State.Bare.owned hu ho.1 hl.duties
  have hgiven : ∀ e ∈ s.cap.table, e.uid < s.cap.nextUid := (s.uidsSound_iff.mp hs.uids).2
  have hout : ∀ {u : State} {fl}, s.link.flight = some fl → SameBooks s.unflown u →
      u.Owning (fl.frame.duty :: u.link.duties) ∧ u.Loose := by
    intro u fl hfl hb
    refine ⟨?_, .of_unflown hb.flight⟩
    rw [hb.duties, ← State.unflown_duties hfl]
    exact State.Owning.of_same (s := s) ho.1 hb.table hb.nextUid
  have hsame : ∀ {u : State}, u.cap.table = s.cap.table → u.cap.nextUid = s.cap.nextUid → u.link = s.link → u.Owned :=
    fun ht hn hl => ⟨by rw [hl]; exact ho.1.of_same (by rw [ht]) hn,
      ho.2.mono (by rw [hl]) fun e he => ⟨e, ht ▸ he, rfl⟩⟩
  cases h
  case quiet hu hb => exact hb.owned ho
  case refit l hu hr =>
    refine ⟨State.Owning.of_same (s := s) (ho.1.perm ?_) rfl rfl, fun fl hfl hfin e he howner => ?_⟩
    · have hperm := (hr.frames.map fun x => (x.1, x.2.1)).symm
      rw [List.map_map, List.map_map] at hperm
      exact hperm
    · obtain ⟨fl', hfl', hfin', heq⟩ := hr.finishing fl hfl hfin
      exact ho.2 fl' hfl' hfin' e he (heq ▸ howner)
  case free uid => exact ho.free uid
  case giveUp e he hw => exact ho.giveUp he hw
  case close uid e o he ho' hc => exact ho.beginClosing hs.ordered hs.uids he ho' hc
  case offer o c hc ho' =>
    refine ho.offer hs.ordered (fun uid => ?_) fun uid he => ?_
    · have := mt c.cls_eq_zero_iff.mpr hc
      simp [isUrgent, this]
    · rcases ho' with rfl | ⟨e, hmem, rfl⟩
      · cases he
      · cases he; exact hgiven e hmem
  case decline tag reason hj hnew =>
    exact State.Owned.offer (s := { s with cap := { s.cap with declined := s.cap.declined ++ [tag] } })
      (hsame rfl rfl rfl) hs.ordered (fun _ => by simp [isUrgent]) (by simp)
  case reply i kind result =>
    unfold State.offerReply
    exact State.Owned.offer (hsame rfl rfl rfl) hs.ordered (fun _ => by simp [isUrgent]) (by simp)
  case addEntry t e hj hroom htag huid ho' =>
    have hroomed := ho.makeRoom hroom
    refine hroomed.addEntry (State.uidsSound_makeRoom hroom hs.uids) huid (D := t.link.duties) ?_ (fun _ _ => rfl)
      fun _ _ => .inl
    rw [huid, hroomed.none_yet, ho']
    exact .refl _
  case originate t u e f hj hroom hplaces htag huid ho' hu hb =>
    have hroomed := ho.makeRoom hroom
    obtain ⟨term, horigin⟩ := ho'
    obtain ⟨hadded, hloose⟩ := hroomed.addEntry (State.uidsSound_makeRoom hroom hs.uids) huid
      (D := (.entry e.uid, 0) :: t.link.duties) (by
        rw [urgentKinds_cons_of (by simp [isUrgent_entry]), huid, hroomed.none_yet, horigin]
        exact .refl _)
      (fun u hu => urgentKinds_cons_of_not (by simp [isUrgent_entry, hu]) _)
      (fun v k hx => (List.mem_cons.mp hx).symm.imp_right fun he => by cases he; rfl)
    have hordered : u.link.Ordered := ((State.makeRoom_shrunk hroom).trans hb.shrunk).ordered hs.ordered
    refine ⟨State.Owning.offer (c := .call f) hordered ?_, (hloose.mono hb.flight fun _ => hb.uids).offer _ _⟩
    rw [hb.duties]
    exact hadded.of_same hb.table hb.nextUid
  case withdrawDeclined tag =>
    unfold State.withdrawDeclined
    split
    · refine ⟨State.Owning.mono (s := s) ho.1 (fun p hp => ⟨hp, .of_eq (urgentKinds_withdraw _ (by simp))⟩)
        (fun _ _ hx => (s.link.withdraw_shrunk _).duties.subset hx) (le_refl _), ho.2.mono rfl fun e he => ⟨e, he, rfl⟩⟩
    · exact ho
  case dropAll hj =>
    refine hbare ?_ (s.dropAll_shrunk .muted rfl)
    obtain ⟨g, e⟩ := s.dropAll_eq .muted
    rw [e]
    exact State.Bare.flushLink ⟨rfl, rfl⟩
  case leave m hj =>
    have hshrunk := State.dropAll_shrunk { s with ctrl := { s.ctrl with monitor := m } } .leaving rfl
    refine State.Owned.offer (hbare ?_ hshrunk) (hshrunk.ordered hs.ordered) (fun _ => by simp [isUrgent]) (by simp)
    obtain ⟨g, e⟩ := State.dropAll_eq { s with ctrl := { s.ctrl with monitor := m } } .leaving
    rw [e]
    exact State.Bare.flushLink ⟨rfl, rfl⟩
  case muteLeaving hl =>
    refine hbare ?_ (State.flushLink_shrunk { s with ctrl := { s.ctrl with lifecycle := .muted } } rfl)
    have hrest := (s.restSound_iff.mp hs.rest) (by simp [State.joined, hl])
    exact State.Bare.flushLink ⟨hrest.1, rfl⟩
  case lost t fl f o hu hfl hb hsig ho' =>
    obtain ⟨howning, hloose⟩ := hout hfl hb
    obtain ⟨howner, hkind, -⟩ := QFrame.sig_eq.mp hsig
    have hduty : f.duty = fl.frame.duty := by rw [QFrame.duty, QFrame.duty, howner, hkind]
    have hlose := State.Owning.lose (s := t) (f := f) (o := o) (H := []) (fun he _ e hmem hown => ?_)
      (by rw [hduty, List.append_nil]; exact howning)
    · rw [List.append_nil] at hlose
      exact ⟨hlose, hloose.lose f o⟩
    · obtain ⟨e', he', huid⟩ := hb.uids hmem
      exact ho.2 fl hfl (ho' he) e' he' (by rw [← howner, hown, huid])
  case callSent t fl uid hu hfl hb ho' hc =>
    obtain ⟨howning, hloose⟩ := hout hfl hb
    have hduty : fl.frame.duty = (.entry uid, 0) := by rw [QFrame.duty, ho', (Content.isCall_iff _).mp hc]
    refine ⟨State.Owning.callSent (hduty ▸ howning), .of_unflown hb.flight⟩
  case landed fl uid hfl ho' hc hu hb =>
    obtain ⟨howning, hloose⟩ := hout hfl hb
    have := mt (Content.cls_eq_zero_iff _).mpr hc
    exact ⟨howning.drop fun _ _ => by simp [isUrgent, QFrame.duty, this], hloose⟩

theorem ownersSound_kept {s t : State} (h : step s = .next t) (ho : s.ownersSound = true) (huids : s.uidsSound = true)
    (hordered : s.queueOrdered = true) (hrest : s.restSound = true) : t.ownersSound = true := by
  rw [State.ownersSound_iff] at *
  rw [State.queueOrdered_iff] at hordered
  have hbooks : ∀ {s t : State}, t.cap = s.cap → t.link = s.link → s.Owned → t.Owned := fun hc hl ho =>
    ⟨by rw [hl]; exact ho.1.of_same (by rw [hc]) (by rw [hc]), ho.2.mono (by rw [hl]) fun e he => ⟨e, hc ▸ he, rfl⟩⟩
  refine (step_keeps_of_act (P := fun s => s.Regular ∧ s.Owned) ?_ ?_ ?_ ?_ ?_ ?_ ?_ h
    ⟨⟨huids, hrest, hordered⟩, ho⟩).2
  · exact fun s q ⟨hr, ho⟩ => ⟨⟨hr.uids, hr.rest, hr.ordered⟩, hbooks (s := s) rfl rfl ho⟩
  · refine fun s dt ⟨hr, ho⟩ => ⟨⟨?_, ?_, (s.elapse_shrunk dt).ordered hr.ordered⟩, ?_⟩
    · simpa [State.uidsSound_iff] using hr.uids
    · simpa [State.restSound_iff] using hr.rest
    · refine ⟨?_, ho.2.mono (by simp) fun e he => ⟨e, by simpa using he, rfl⟩⟩
      rw [LinkUnit.duties, State.elapse_frames]
      exact State.Owning.of_same (s := s) ho.1 (by simp) (by simp)
  · exact fun s ⟨hr, ho⟩ => ⟨⟨hr.uids, hr.rest, hr.ordered⟩, hbooks (s := s) rfl rfl ho⟩
  · exact fun ha ⟨hr, ho⟩ => ⟨ha.regular hr, ha.owned hr ho⟩
  · refine fun s k _ _ => ⟨⟨by rfl, by rfl, LinkUnit.reset_ordered⟩, ⟨?_, ?_⟩, .of_unflown rfl⟩
    · exact fun p hp => by cases hp
    · exact fun u k hx => by cases hx
  · intro s h x hh ⟨hr, ho⟩
    refine ⟨⟨hr.uids, ?_, hr.ordered⟩, hbooks (s := s) rfl rfl ho⟩
    have hrest := hr.rest
    rw [State.restSound_iff] at *
    exact fun _ => hrest (by simp [State.joined, State.released, hh])
  · intro s h straps normal hh ⟨hr, ho⟩
    have hrest := hr.rest
    rw [State.resetRelease_eq hh]
    refine ⟨⟨hr.uids, ?_, hr.ordered⟩, hbooks (s := s) rfl rfl ho⟩
    rw [State.restSound_iff] at *
    exact fun _ => hrest (by simp [State.joined, State.released, hh])

end Sys2Proof.Machine

namespace Sys2Proof

-- one declaration after the other: fewer threads at a time
set_option Elab.async false

open Machine

/-- Settles O44, act by act. -/
theorem originPartsHoldTheirFrame : Obligations.OriginPartsHoldTheirFrame := by
  unfold Obligations.OriginPartsHoldTheirFrame
  exact fun s t h => ownersSound_kept h

end Sys2Proof

/-!
PROOFS. The station controller's events: the image read (R166 to R170, R184) and the supply monitor outside JOINED (R172,
R173, R176).
-/

namespace Sys2Proof.Machine

-- one declaration after the other: fewer threads at a time
set_option Elab.async false

/-! ### The image's fields (R184) -/

/-- R168: the declared groups are within their ranges. -/
def groupsOk (bytes : List Byte) (active : ChanSet) : Prop :=
  ∀ g ∈ eight, (imageByte bytes 7).getLsbD g.val = true →
    groupOk (groupConfigOf bytes g.val) active (imageByte bytes 28).toNat = true

/-- R184: the active channels by their modes. -/
def activeOf (m0 m1 m2 m3 : ChannelMode) : ChanSet :=
  BitVec.ofBool (decide (m3 ≠ .off)) ++ BitVec.ofBool (decide (m2 ≠ .off)) ++ BitVec.ofBool (decide (m1 ≠ .off)) ++
    BitVec.ofBool (decide (m0 ≠ .off))

/-- R184: the image of its fields that can be out of range, the rest read from the bytes. -/
def imageOf (bytes : List Byte) (period : Nat) (modes : Four ChannelMode) (terms : Four TermConfig)
    (strobe0 strobe1 : StrobeConfig) : Image where
  samplePeriod := period
  modes := modes
  monitors := ⟨monitorsOf (imageWord bytes 2) 0, monitorsOf (imageWord bytes 2) 1, monitorsOf (imageWord bytes 2) 2,
    monitorsOf (imageWord bytes 2) 3⟩
  quietTime := (imageWord bytes 4).toNat
  filters := ⟨filterOf (twoBits (imageByte bytes 6) 0), filterOf (twoBits (imageByte bytes 6) 1),
    filterOf (twoBits (imageByte bytes 6) 2), filterOf (twoBits (imageByte bytes 6) 3)⟩
  declared := imageByte bytes 7
  groups := #v[groupConfigOf bytes 0, groupConfigOf bytes 1, groupConfigOf bytes 2, groupConfigOf bytes 3,
    groupConfigOf bytes 4, groupConfigOf bytes 5, groupConfigOf bytes 6, groupConfigOf bytes 7]
  cadenceLead := (imageByte bytes 28).toNat
  collectWindow := (imageByte bytes 29).toNat
  busDelay := (imageByte bytes 30).toNat
  terms := terms
  strobe0 := strobe0
  strobe1 := strobe1

/-- R168, R184: an image and the fields it is read from. -/
structure Image.ReadFrom (bytes : List Byte) (period : Nat) (modes : Four ChannelMode) (terms : Four TermConfig)
    (strobe0 strobe1 : StrobeConfig) : Prop where
  period : samplePeriodOf (imageByte bytes 0) = some period
  mode : ∀ i : Chan, channelModeOf (twoBits (imageByte bytes 1) i.val) = some (modes.get i)
  quiet : (imageWord bytes 4).toNat ≤ 60000
  lead : 1 ≤ (imageByte bytes 28).toNat ∧ (imageByte bytes 28).toNat ≤ 50
  window : 1 ≤ (imageByte bytes 29).toNat ∧ (imageByte bytes 29).toNat ≤ 50
  delay : (imageByte bytes 30).toNat ≤ 63
  groups : groupsOk bytes (activeOf modes.x0 modes.x1 modes.x2 modes.x3)
  term : ∀ i : TermNo, termOf bytes (31 + 16 * i.val) (activeOf modes.x0 modes.x1 modes.x2 modes.x3) (imageByte bytes 7) =
    some (terms.get i)
  strobe0 : strobeOf bytes 95 = some strobe0
  strobe1 : strobeOf bytes 98 = some strobe1

theorem Image.ofBytes_eq_some_iff {bytes : List Byte} {im : Image} :
    Image.ofBytes bytes = some im ↔ ∃ period modes terms strobe0 strobe1,
      Image.ReadFrom bytes period modes terms strobe0 strobe1 ∧ im = imageOf bytes period modes terms strobe0 strobe1 := by
  constructor
  · intro h
    simp only [Image.ofBytes, Option.bind_eq_bind, Option.bind_eq_some_iff, Option.ite_none_left_eq_some, not_or, not_exists,
      not_and, not_lt, not_not, Option.some.injEq] at h
    obtain ⟨p, hp, m0, h0, m1, h1, m2, h2, m3, h3, ⟨hq, hl, hl', hw, hw', hd⟩, hg, t0, ht0, t1, ht1, t2, ht2, t3, ht3, s0, hs0,
      s1, hs1, rfl⟩ := h
    refine ⟨p, ⟨m0, m1, m2, m3⟩, ⟨t0, t1, t2, t3⟩, s0, s1, ⟨hp, fun i => ?_, hq, ⟨hl, hl'⟩, ⟨hw, hw'⟩, hd, hg, fun i => ?_, hs0, hs1⟩, rfl⟩
    · fin_cases i <;> assumption
    · fin_cases i <;> assumption
  · rintro ⟨p, ⟨m0, m1, m2, m3⟩, ⟨t0, t1, t2, t3⟩, s0, s1, h, rfl⟩
    simp only [Image.ofBytes, Option.bind_eq_bind, Option.bind_eq_some_iff, Option.ite_none_left_eq_some, not_or, not_exists,
      not_and, not_lt, not_not, Option.some.injEq]
    exact ⟨p, h.period, m0, h.mode 0, m1, h.mode 1, m2, h.mode 2, m3, h.mode 3,
      ⟨h.quiet, h.lead.1, h.lead.2, h.window.1, h.window.2, h.delay⟩, h.groups, t0, h.term 0, t1, h.term 1, t2, h.term 2,
      t3, h.term 3, s0, h.strobe0, s1, h.strobe1, rfl⟩

theorem samplePeriodOf_eq_some_iff {b : Byte} {p : Nat} :
    samplePeriodOf b = some p ↔ b.toNat ≤ 3 ∧ p = [100, 200, 500, 1000].getD b.toNat 0 := by
  unfold samplePeriodOf
  rcases b.toNat with _ | _ | _ | _ | n <;> simp [eq_comm]

theorem Image.samplePeriod_mem {bytes : List Byte} {im : Image} (h : Image.ofBytes bytes = some im) :
    im.samplePeriod ∈ [100, 200, 500, 1000] := by
  obtain ⟨p, modes, terms, s0, s1, hr, rfl⟩ := Image.ofBytes_eq_some_iff.mp h
  obtain ⟨hb, rfl⟩ := samplePeriodOf_eq_some_iff.mp hr.period
  simp only [imageOf]
  rcases h : (imageByte bytes 0).toNat with _ | _ | _ | _ | n <;> simp [h] at *
  omega

/-! ### The read (R166 to R170) -/

theorem State.released_of_hold {s : State} (h : s.ctrl.hold = none) : s.released = true := by simp [State.released, h]

theorem State.joined_of {s : State} (h : s.ctrl.hold = none) (hl : s.ctrl.lifecycle = .joined) : s.joined = true := by
  simp [State.joined, State.released_of_hold h, hl]

theorem State.configRead_short {s : State} (hh : s.ctrl.hold = none) (hl : s.ctrl.lifecycle = .loading)
    {image : Option (List Byte)} (h : ∀ bytes, image = some bytes → bytes.length < 103) :
    s.configRead image = s.readFailed := by
  unfold State.configRead
  rw [if_neg (by simp [State.released, hh, hl])]
  cases image with
  | none => rfl
  | some bytes => exact if_pos (h bytes rfl)

/-- R167: a whole image is checked. -/
theorem State.configRead_whole {s : State} (hh : s.ctrl.hold = none) (hl : s.ctrl.lifecycle = .loading) {bytes : List Byte}
    (h : bytes.length = 103) :
    (∀ image, Image.check bytes = .ok image → s.configRead (some bytes) = s.startListening image) ∧
      ∀ reason, Image.check bytes = .error reason → s.configRead (some bytes) = s.halt reason := by
  have hsize : ¬ bytes.length < Config.imageSize := by simp [h, Config.imageSize]
  refine ⟨fun image hc => ?_, fun reason hc => ?_⟩
  all_goals
    unfold State.configRead
    rw [if_neg (by simp [State.released, hh, hl])]
    simp only [hsize, if_false, hc]

theorem Image.check_cases {bytes : List Byte} (h : bytes.length = 103) :
    (bytes2 (crc16 (bytes.take 101)) ≠ bytes.drop 101 → Image.check bytes = .error .check) ∧
    (bytes2 (crc16 (bytes.take 101)) = bytes.drop 101 → Image.ofBytes bytes = none → Image.check bytes = .error .range) ∧
    ∀ image, bytes2 (crc16 (bytes.take 101)) = bytes.drop 101 → Image.ofBytes bytes = some image →
      Image.check bytes = .ok image := by
  have hcrc : (bytes.drop 101).take 2 = bytes.drop 101 := List.take_of_length_le (by simp [h])
  rw [Image.check, hcrc]
  refine ⟨fun hne => if_pos hne, fun he hrange => ?_, fun image he him => ?_⟩
  · rw [if_neg (by simp [he]), hrange]
  · rw [if_neg (by simp [he]), him]

theorem State.readFailed_eq (s : State) :
    s.readFailed = { s with
      ctrl :=
        if s.ctrl.readFailures < 2 then { s.ctrl with readFailures := s.ctrl.readFailures + 1 }
        else { s.ctrl with
          readFailures := s.ctrl.readFailures + 1, lifecycle := .halted, haltReason := some .noMemory } } := by
  unfold State.readFailed
  by_cases h : s.ctrl.readFailures < 2
  · simp [h, Config.readAttempts, show ¬ 3 ≤ s.ctrl.readFailures + 1 by omega]
  · simp [h, Config.readAttempts, show 3 ≤ s.ctrl.readFailures + 1 by omega, State.halt]

/-! ### The start (R114, R118, R53) -/

/-- R114: an active channel as it starts. -/
theorem Channel.start_of_active {m : ChannelMode} (h : m ≠ .off) (monitors levels causes : Lines) :
    Channel.start m monitors levels causes = { Channel.reset with
      lastA := levels.a
      lastB := levels.b
      recA := ⟨monitors.a && causes.a, monitors.a && causes.a⟩
      recB := ⟨monitors.b && causes.b, monitors.b && causes.b⟩
      recR := ⟨monitors.r && causes.r, monitors.r && causes.r⟩
      quality := if ((monitors.a && causes.a) || (monitors.b && causes.b)) then .fault else .unconfirmed } := by
  have hactive : Channel.start m monitors levels causes =
      ((({ Channel.reset with lastA := levels.a, lastB := levels.b } : Channel).startLine monitors causes .a).startLine
        monitors causes .b).startLine monitors causes .r := by
    cases m with
    | off => exact absurd rfl h
    | quad4 | pulseDir => rfl
  rw [hactive]
  cases ha : monitors.a && causes.a <;> cases hb : monitors.b && causes.b <;> cases hr : monitors.r && causes.r <;>
    simp [Channel.startLine, Lines.get, ha, hb, hr, Channel.causeAppears, Channel.setRecord, Channel.reset]

theorem sub_addTicks (t : Time) {n : Nat} (h : n < 2 ^ 48) : (addTicks t n - t).toNat = n := by
  have : addTicks t n - t = BitVec.ofNat 48 n := by rw [addTicks]; exact add_sub_cancel_left ..
  rw [this, BitVec.toNat_ofNat]
  exact Nat.mod_eq_of_lt h

/-- R50, R53: the first instant is the next of the series. -/
theorem firstInstant_next (now : Time) (phase : Nat) {period : Nat} (passed : Option Time)
    (h : period ∈ [100, 200, 500, 1000]) :
    let ahead := (firstInstant now phase period passed - now).toNat
    (phase + ahead) % period = 0 ∧
      if passed = some now then 1 ≤ ahead ∧ ahead ≤ period else ahead < period := by
  have hbounds : 0 < period ∧ period ≤ 1000 := by
    simp only [List.mem_cons, List.not_mem_nil, or_false] at h
    omega
  have hpast : phase % period < period := Nat.mod_lt _ hbounds.1
  by_cases hnow : phase % period = 0 ∧ passed ≠ some now
  · have e : firstInstant now phase period passed = now := if_pos hnow
    simp [e, hnow, hbounds]
  · have e : firstInstant now phase period passed = addTicks now (period - phase % period) := if_neg hnow
    dsimp only
    rw [e, sub_addTicks now (by omega)]
    refine ⟨?_, ?_⟩
    · have hsum : phase + (period - phase % period) = period * (phase / period) + period := by
        have := Nat.div_add_mod phase period
        omega
      rw [hsum]
      simp
    · split
      · omega
      · have : phase % period ≠ 0 := fun h0 => hnow ⟨h0, by assumption⟩
        omega

theorem State.trackTerms_get (s : State) (k : TermNo) :
    s.trackTerms.get k = (s.trig.terms.get k).track (s.image.terms.get k).condition
      ((s.image.terms.get k).condition.blocked s.chans) s.joined s.trig.levels := by
  rw [State.trackTerms, Four.get_build]

end Sys2Proof.Machine

namespace Sys2Proof

-- one declaration after the other: fewer threads at a time
set_option Elab.async false

open Machine

/-- Settles O11, by the branches of the read. -/
theorem readOutcomesHalt : Obligations.ReadOutcomesHalt := by
  intro dt s hh hl
  have hread : ∀ image, exec (.configReadAttempt dt image) s = .next ((s.elapse dt).configRead image).settle :=
    fun image => exec_eq_effect _ s
  have hh' : (s.elapse dt).ctrl.hold = none := by simpa using hh
  have hl' : (s.elapse dt).ctrl.lifecycle = .loading := by simpa using hl
  refine ⟨fun image hshort => ?_, fun bytes hlen => ⟨fun hcrc => ?_, fun hcrc hrange => ?_⟩⟩
  · rw [hread, State.configRead_short hh' hl' hshort, State.readFailed_eq]
    simp
  · rw [hread, (State.configRead_whole hh' hl' hlen).2 _ ((Image.check_cases hlen).1 hcrc)]
    simp [State.halt]
  · rw [hread, (State.configRead_whole hh' hl' hlen).2 _ ((Image.check_cases hlen).2.1 hcrc hrange)]
    simp [State.halt]

/-- Settles O12: the start, block by block. -/
theorem acceptedImageStartsListening : Obligations.AcceptedImageStartsListening := by
  intro dt s bytes image hh hl hlen hcrc hrange
  have hread : exec (.configReadAttempt dt (some bytes)) s = .next ((s.elapse dt).startListening image).settle := by
    rw [exec_eq_effect]
    refine congrArg _ (congrArg _ ?_)
    exact (State.configRead_whole (by simpa using hh) (by simpa using hl) hlen).1 image
      ((Image.check_cases hlen).2.2 image hcrc hrange)
  refine ⟨_, firstInstant (s.elapse dt).time.localTime (s.elapse dt).time.phase image.samplePeriod s.hist.passed,
    hread, ?_⟩
  rw [State.startListening_eq]
  refine ⟨rfl, rfl, by simp, by simp [addTicks, Config.listenPeriod], by simp, by simp, by simp, by simpa using hh,
    by simp, by simp, fun i hi => ?_, fun i hi => ?_, fun i => by simp, fun k => ?_, by simp, ?_, by simp [State.netTime], ?_,
    by simp, by simp, by simp, by simp⟩
  · simp [hi, Channel.start]
  · have hsignals : startSignals (image.modes.get i) (s.pins.levels.get i) (s.elapse dt).time.localTime =
        ⟨⟨(s.pins.levels.get i).a, (s.elapse dt).time.localTime⟩, ⟨(s.pins.levels.get i).b, (s.elapse dt).time.localTime⟩,
          ⟨(s.pins.levels.get i).r, (s.elapse dt).time.localTime⟩⟩ := by
      cases hm : image.modes.get i with
      | off => exact absurd hm hi
      | quad4 | pulseDir => rfl
    rw [State.settle_chans, State.settle_trig_chans, Four.get_build, Four.get_build, State.elapse_pins, hsignals,
      Channel.start_of_active hi]
    exact ⟨rfl, rfl, rfl, rfl, rfl, fun n => by cases n <;> exact ⟨rfl, rfl⟩, rfl, rfl, rfl, rfl, rfl⟩
  · rw [State.settle_terms, State.trackTerms_get]
    simp
  · exact firstInstant_next _ _ s.hist.passed (Image.samplePeriod_mem hrange)
  · have hlink : (s.elapse dt).link = s.link := by
      rw [State.elapse_released _ hh]
      exact State.watchBus_stopped dt (by simp [State.running, hl])
    rw [State.settle_link, ← hlink]

/-- Settles O15, by the branches of the monitor's events. -/
theorem supplyMonitorByState : Obligations.SupplyMonitorByState := by
  intro dt s hh
  have hwarning : exec (.supplyWarning dt) s = .next ((s.elapse dt).supplyWarning).settle := exec_eq_effect _ s
  have hclear : exec (.supplyClear dt) s = .next ((s.elapse dt).supplyClear).settle := exec_eq_effect _ s
  rw [hwarning, hclear]
  refine ⟨fun hm => ?_, fun hm => ?_, fun hm hl => ?_, fun hm => ?_⟩
  · simp [State.supplyWarning, hm]
  · simp [State.supplyClear, hm]
  · rw [State.supplyWarning, if_neg (by simp [State.released, hh, hm])]
    cases hs : s.ctrl.lifecycle <;> simp_all [State.withdraw]
  · rw [State.supplyClear, if_neg (by simp [State.released, hh, hm])]
    cases hs : s.ctrl.lifecycle <;> simp [hs, State.listenAgain, addTicks, Config.listenPeriod]

end Sys2Proof

/-!
PROOFS. The configuration image (R168, R184): each field by the bytes it is read from.
-/

namespace Sys2Proof.Machine

-- one declaration after the other: fewer threads at a time
set_option Elab.async false

/-! ### Bytes and words -/

theorem word2_toNat (a b : Byte) : (word2 a b).toNat = a.toNat * 256 + b.toNat := by
  rw [word2, BitVec.toNat_append, Nat.shiftLeft_eq, Nat.or_comm, ← Nat.shiftLeft_eq,
    Nat.or_comm, ← Nat.shiftLeft_add_eq_or_of_lt b.isLt, Nat.shiftLeft_eq]

theorem append_toNat {n m : Nat} (a : BitVec n) (b : BitVec m) : (a ++ b).toNat = a.toNat * 2 ^ m + b.toNat := by
  rw [BitVec.toNat_append, ← Nat.shiftLeft_add_eq_or_of_lt b.isLt, Nat.shiftLeft_eq]

theorem imageByte_toNat (bytes : List Byte) (n : Nat) : (imageByte bytes n).toNat = (bytes.getD n 0).toNat := rfl

theorem imageWord_toNat (bytes : List Byte) (n : Nat) :
    (imageWord bytes n).toNat = (bytes.getD n 0).toNat * 256 + (bytes.getD (n + 1) 0).toNat := word2_toNat _ _

/-- R184: a two-bit field. -/
theorem twoBits_eq (b : Byte) (i : Fin 4) : twoBits b i.val = b.toNat / 4 ^ (3 - i.val) % 4 := by
  rw [twoBits, BitVec.extractLsb'_toNat, Nat.shiftRight_eq_div_pow]
  fin_cases i <;> rfl

theorem testBit_toNat {n : Nat} (x : BitVec n) (i : Nat) : x.toNat.testBit i = x.getLsbD i := rfl

/-! ### Channels and groups -/

theorem channelModeOf_eq_some_iff {n : Nat} {m : ChannelMode} :
    channelModeOf n = some m ↔ n ≤ 2 ∧ m = [ChannelMode.off, .quad4, .pulseDir].getD n .off := by
  unfold channelModeOf
  rcases n with _ | _ | _ | n <;> simp [eq_comm]

theorem modeCode_eq_zero_iff {n : Nat} (h : n ≤ 2) : [ChannelMode.off, .quad4, .pulseDir].getD n .off = .off ↔ n = 0 := by
  rcases n with _ | _ | _ | n <;> simp
  omega

theorem ofBools_getLsbD (b : Four Bool) (i : Chan) :
    (BitVec.ofBool b.x3 ++ BitVec.ofBool b.x2 ++ BitVec.ofBool b.x1 ++ BitVec.ofBool b.x0).getLsbD i.val = b.get i := by
  obtain ⟨b0, b1, b2, b3⟩ := b
  revert b0 b1 b2 b3
  fin_cases i <;> decide

theorem activeOf_getLsbD (modes : Four ChannelMode) (i : Chan) :
    (activeOf modes.x0 modes.x1 modes.x2 modes.x3).getLsbD i.val = decide (modes.get i ≠ .off) := by
  have := ofBools_getLsbD (Four.build fun i => decide (modes.get i ≠ .off)) i
  rwa [Four.get_build] at this

/-- A set within another, place by place. -/
theorem inactive_eq_zero_iff (a b : BitVec 4) : a &&& ~~~b = 0 ↔ ∀ i : Chan, a.getLsbD i.val = true → b.getLsbD i.val = true := by
  constructor
  · intro h i ha
    have := congrArg (fun x => x.getLsbD i.val) h
    simp only [BitVec.getLsbD_and, BitVec.getLsbD_not, ha] at this
    simpa [i.isLt] using this
  · intro h
    refine BitVec.eq_of_getLsbD_eq fun i hi => ?_
    have := h ⟨i, hi⟩
    simp only [BitVec.getLsbD_and, BitVec.getLsbD_not, hi]
    cases ha : a.getLsbD i <;> simp_all

theorem mapOf_toNat (bytes : List Byte) (g : Group) :
    (mapOf bytes g.val).toNat = if g.val % 2 = 0 then (bytes.getD (8 + g.val / 2) 0).toNat / 16
      else (bytes.getD (8 + g.val / 2) 0).toNat % 16 := by
  rw [mapOf, BitVec.extractLsb'_toNat, Nat.shiftRight_eq_div_pow, imageByte_toNat]
  have := (bytes.getD (8 + g.val / 2) 0).isLt
  split <;> omega

theorem signalChannels_getLsbD (signals : BitVec 16) (i : Chan) :
    (signalChannels signals).getLsbD i.val = decide (signals.extractLsb' (13 - 3 * i.val) 3 ≠ 0) := by
  have := ofBools_getLsbD (Four.build fun i => decide (signals.extractLsb' (13 - 3 * i.val) 3 ≠ 0)) i
  rwa [Four.get_build] at this

theorem signals_eq_zero_iff (signals : BitVec 16) (n : Nat) :
    signals.extractLsb' n 3 = 0 ↔ signals.toNat / 2 ^ n % 8 = 0 := by
  rw [← BitVec.toNat_inj, BitVec.extractLsb'_toNat, Nat.shiftRight_eq_div_pow]
  rfl

/-! ### Codes -/

theorem groupOf_eq_some_iff {b : Byte} {g : Group} : groupOf b = some g ↔ g.val = b.toNat := by
  unfold groupOf
  split
  · simp only [Option.some.injEq, Fin.ext_iff]
    exact eq_comm
  · have := g.isLt
    simp only [reduceCtorEq, false_iff]
    omega

theorem flagOf_eq_some_iff {b : Byte} {x : Bool} : flagOf b = some x ↔ b.toNat ≤ 1 ∧ (x = true ↔ b.toNat = 1) := by
  unfold flagOf
  rcases b.toNat with _ | _ | n <;> cases x <;> simp

theorem termModeOf_eq_some_iff {b : Byte} {m : TermMode} :
    termModeOf b = some m ↔ b.toNat ≤ 1 ∧ m = if b.toNat = 0 then .single else .continuous := by
  unfold termModeOf
  rcases b.toNat with _ | _ | n <;> simp [eq_comm]

theorem directionOf_eq_some_iff {b : Byte} {d : Direction} :
    directionOf b = some d ↔ b.toNat ≤ 2 ∧ d = [Direction.up, .down, .either].getD b.toNat .up := by
  unfold directionOf
  rcases b.toNat with _ | _ | _ | n <;> simp [eq_comm]

theorem strobeOf_eq_some_iff {bytes : List Byte} {n : Nat} {x : StrobeConfig} :
    strobeOf bytes n = some x ↔ (1 ≤ (imageWord bytes (n + 1)).toNat ∧ (imageWord bytes (n + 1)).toNat ≤ 1000) ∧
      x.width = (imageWord bytes (n + 1)).toNat ∧
      ((imageByte bytes n).toNat = 255 ∧ x.group = none ∨
        ∃ g : Group, x.group = some g ∧ g.val = (imageByte bytes n).toNat) := by
  obtain ⟨group, width⟩ := x
  have hff : imageByte bytes n = 0xFF ↔ (imageByte bytes n).toNat = 255 := by
    rw [← BitVec.toNat_inj]
    rfl
  simp only [strobeOf, Option.ite_none_left_eq_some, not_or, not_lt]
  by_cases h : (imageByte bytes n).toNat = 255
  · have hno : ∀ g : Group, g.val ≠ 255 := fun g => by have := g.isLt; omega
    simp only [hff, h, if_true, Option.some.injEq, StrobeConfig.mk.injEq, true_and, hno, and_false, exists_const, or_false]
    exact and_congr_right fun _ => ⟨fun ⟨hg, hw⟩ => ⟨hw.symm, hg.symm⟩, fun ⟨hw, hg⟩ => ⟨hg.symm, hw.symm⟩⟩
  · simp only [hff, h, if_false, Option.map_eq_some_iff, groupOf_eq_some_iff, StrobeConfig.mk.injEq, false_and, false_or]
    constructor
    · rintro ⟨hw, g, hg, rfl, rfl⟩
      exact ⟨hw, rfl, g, rfl, hg⟩
    · rintro ⟨hw, rfl, g, rfl, hg⟩
      exact ⟨hw, g, hg, rfl, rfl⟩

/-! ### Terms -/

theorem conditionOf_eq_none_iff {bytes : List Byte} {n : Nat} {active : ChanSet} :
    conditionOf bytes n active = some .none ↔ (imageByte bytes n).toNat = 0 := by
  unfold conditionOf
  rcases (imageByte bytes n).toNat with _ | _ | _ | k <;> simp

theorem conditionOf_eq_pattern_iff {bytes : List Byte} {n : Nat} {active : ChanSet} {signals levels : BitVec 16} :
    conditionOf bytes n active = some (.pattern signals levels) ↔ (imageByte bytes n).toNat = 1 ∧
      signals = imageWord bytes (n + 6) ∧ levels = imageWord bytes (n + 8) ∧ signals ≠ 0 ∧
      signalChannels signals &&& ~~~active = 0 := by
  unfold conditionOf
  rcases (imageByte bytes n).toNat with _ | _ | _ | k
  · simp
  · simp only [Option.ite_none_left_eq_some, not_not, Option.some.injEq, Condition.pattern.injEq, zero_add, true_and]
    constructor
    · rintro ⟨h, h', rfl, rfl⟩
      exact ⟨rfl, rfl, h, h'⟩
    · rintro ⟨rfl, rfl, h, h'⟩
      exact ⟨h, h', rfl, rfl⟩
  · simp
  · simp

theorem conditionOf_eq_cross_iff {bytes : List Byte} {n : Nat} {active : ChanSet} {c : Chan} {d : Direction}
    {threshold : Count} :
    conditionOf bytes n active = some (.cross c d threshold) ↔ (imageByte bytes n).toNat = 2 ∧
      c.val = (imageByte bytes (n + 10)).toNat ∧ active.getLsbD c.val = true ∧
      directionOf (imageByte bytes (n + 11)) = some d ∧
      threshold = word4 (imageByte bytes (n + 12)) (imageByte bytes (n + 13)) (imageByte bytes (n + 14))
        (imageByte bytes (n + 15)) := by
  unfold conditionOf
  rcases (imageByte bytes n).toNat with _ | _ | _ | k
  · simp
  · simp
  · simp only [zero_add, true_and]
    split
    · rename_i hlt
      rw [Option.ite_none_right_eq_some, Option.map_eq_some_iff]
      constructor
      · rintro ⟨ha, d', hd, heq⟩
        simp only [Condition.cross.injEq] at heq
        obtain ⟨rfl, rfl, rfl⟩ := heq
        exact ⟨rfl, ha, hd, rfl⟩
      · rintro ⟨hc, ha, hd, rfl⟩
        exact ⟨hc ▸ ha, d, hd, by rw [Condition.cross.injEq]; exact ⟨Fin.ext hc.symm, rfl, rfl⟩⟩
    · simp only [reduceCtorEq, false_iff]
      rintro ⟨hc, -⟩
      have := c.isLt
      omega
  · simp

theorem termOf_eq_some_iff {bytes : List Byte} {n : Nat} {active : ChanSet} {declared : GroupSet} {t : TermConfig} :
    termOf bytes n active declared = some t ↔ conditionOf bytes n active = some t.condition ∧
      (t = TermConfig.unused ∨
        (t.condition ≠ .none ∧ groupOf (imageByte bytes (n + 1)) = some t.group ∧
          termModeOf (imageByte bytes (n + 2)) = some t.mode ∧ flagOf (imageByte bytes (n + 3)) = some t.armedAtJoin ∧
          declared.getLsbD t.group.val = true ∧ t.holdoff = (imageWord bytes (n + 4)).toNat)) := by
  simp only [termOf, Option.bind_eq_bind, Option.bind_eq_some_iff]
  constructor
  · rintro ⟨c, hc, h⟩
    split at h
    · cases h
      rename_i hnone
      exact ⟨hc.trans (congrArg some hnone), .inl rfl⟩
    · rename_i hused
      simp only [Option.bind_eq_some_iff, Option.ite_none_right_eq_some, Option.some.injEq] at h
      obtain ⟨g, hg, m, hm, a, ha, hd, rfl⟩ := h
      exact ⟨hc, .inr ⟨hused, hg, hm, ha, hd, rfl⟩⟩
  · rintro ⟨hc, rfl | ⟨hused, hg, hm, ha, hd, hh⟩⟩
    · exact ⟨_, hc, if_pos rfl⟩
    · refine ⟨_, hc, ?_⟩
      simp only [if_neg hused, Option.bind_eq_some_iff, Option.ite_none_right_eq_some, Option.some.injEq]
      exact ⟨_, hg, _, hm, _, ha, hd, by rw [← hh]⟩

/-- R168: the checks of a term record. -/
theorem termOf_isSome_iff {bytes : List Byte} {n : Nat} {active : ChanSet} {declared : GroupSet} :
    (∃ t, termOf bytes n active declared = some t) ↔ (imageByte bytes n).toNat = 0 ∨
      ((imageByte bytes (n + 1)).toNat ≤ 7 ∧ declared.getLsbD (imageByte bytes (n + 1)).toNat = true ∧
        (imageByte bytes (n + 2)).toNat ≤ 1 ∧ (imageByte bytes (n + 3)).toNat ≤ 1 ∧
        (((imageByte bytes n).toNat = 1 ∧ imageWord bytes (n + 6) ≠ 0 ∧
            signalChannels (imageWord bytes (n + 6)) &&& ~~~active = 0) ∨
          ((imageByte bytes n).toNat = 2 ∧ (imageByte bytes (n + 10)).toNat ≤ 3 ∧
            active.getLsbD (imageByte bytes (n + 10)).toNat = true ∧ (imageByte bytes (n + 11)).toNat ≤ 2))) := by
  constructor
  · rintro ⟨t, ht⟩
    obtain ⟨hc, rfl | ⟨hused, hg, hm, ha, hd, -⟩⟩ := termOf_eq_some_iff.mp ht
    · exact .inl (conditionOf_eq_none_iff.mp hc)
    · rw [groupOf_eq_some_iff] at hg
      rw [termModeOf_eq_some_iff] at hm
      rw [flagOf_eq_some_iff] at ha
      refine .inr ⟨?_, hg ▸ hd, hm.1, ha.1, ?_⟩
      · have := t.group.isLt
        omega
      · cases hcond : t.condition with
        | none => exact absurd hcond hused
        | pattern signals levels =>
          rw [hcond, conditionOf_eq_pattern_iff] at hc
          obtain ⟨hkind, rfl, -, hne, hact⟩ := hc
          exact .inl ⟨hkind, hne, hact⟩
        | cross c d threshold =>
          rw [hcond, conditionOf_eq_cross_iff, directionOf_eq_some_iff] at hc
          obtain ⟨hkind, hchan, hact, ⟨hdir, -⟩, -⟩ := hc
          refine .inr ⟨hkind, ?_, hchan ▸ hact, hdir⟩
          have := c.isLt
          omega
  · rintro (hzero | ⟨hg, hd, hm, ha, hcond⟩)
    · exact ⟨TermConfig.unused, termOf_eq_some_iff.mpr ⟨conditionOf_eq_none_iff.mpr hzero, .inl rfl⟩⟩
    · have hbuild : ∀ c, c ≠ .none → conditionOf bytes n active = some c → ∃ t, termOf bytes n active declared = some t := by
        refine fun c hused hc => ⟨⟨c, ⟨_, Nat.lt_succ_of_le hg⟩,
          if (imageByte bytes (n + 2)).toNat = 0 then .single else .continuous,
          decide ((imageByte bytes (n + 3)).toNat = 1), _⟩, termOf_eq_some_iff.mpr ⟨hc, .inr ⟨hused, ?_, ?_, ?_, hd, rfl⟩⟩⟩
        · exact groupOf_eq_some_iff.mpr rfl
        · exact termModeOf_eq_some_iff.mpr ⟨hm, rfl⟩
        · exact flagOf_eq_some_iff.mpr ⟨ha, by simp⟩
      rcases hcond with ⟨hkind, hne, hact⟩ | ⟨hkind, hchan, hact, hdir⟩
      · exact hbuild _ (by simp) (conditionOf_eq_pattern_iff.mpr ⟨hkind, rfl, rfl, hne, hact⟩)
      · exact hbuild _ (by simp) (conditionOf_eq_cross_iff (c := ⟨_, Nat.lt_succ_of_le hchan⟩).mpr
          ⟨hkind, rfl, hact, directionOf_eq_some_iff.mpr ⟨hdir, rfl⟩, rfl⟩)

/-! ### The checks of the image (R168) -/

theorem strobeOf_isSome_iff {bytes : List Byte} {n : Nat} :
    (∃ x, strobeOf bytes n = some x) ↔ ((imageByte bytes n).toNat ≤ 7 ∨ (imageByte bytes n).toNat = 255) ∧
      1 ≤ (imageWord bytes (n + 1)).toNat ∧ (imageWord bytes (n + 1)).toNat ≤ 1000 := by
  simp only [strobeOf_eq_some_iff]
  constructor
  · rintro ⟨x, hw, -, ⟨hg, -⟩ | ⟨g, -, hg⟩⟩
    · exact ⟨.inr hg, hw⟩
    · have := g.isLt
      exact ⟨.inl (by omega), hw⟩
  · rintro ⟨hg | hg, hw⟩
    · exact ⟨⟨some ⟨_, Nat.lt_succ_of_le hg⟩, _⟩, hw, rfl, .inr ⟨_, rfl, rfl⟩⟩
    · exact ⟨⟨none, _⟩, hw, rfl, .inl ⟨hg, rfl⟩⟩

/-- R168: an image's fields are within their ranges, read by the active channels. -/
theorem Image.ofBytes_isSome_iff {bytes : List Byte} :
    (Image.ofBytes bytes).isSome = true ↔ (imageByte bytes 0).toNat ≤ 3 ∧
      ∃ modes : Four ChannelMode, (∀ i : Chan, channelModeOf (twoBits (imageByte bytes 1) i.val) = some (modes.get i)) ∧
        (imageWord bytes 4).toNat ≤ 60000 ∧
        (1 ≤ (imageByte bytes 28).toNat ∧ (imageByte bytes 28).toNat ≤ 50) ∧
        (1 ≤ (imageByte bytes 29).toNat ∧ (imageByte bytes 29).toNat ≤ 50) ∧ (imageByte bytes 30).toNat ≤ 63 ∧
        (∃ x, strobeOf bytes 95 = some x) ∧ (∃ x, strobeOf bytes 98 = some x) ∧
        groupsOk bytes (activeOf modes.x0 modes.x1 modes.x2 modes.x3) ∧
        ∀ i : TermNo, ∃ t, termOf bytes (31 + 16 * i.val) (activeOf modes.x0 modes.x1 modes.x2 modes.x3)
          (imageByte bytes 7) = some t := by
  rw [Option.isSome_iff_exists]
  constructor
  · rintro ⟨im, him⟩
    obtain ⟨p, modes, terms, s0, s1, h, -⟩ := Image.ofBytes_eq_some_iff.mp him
    exact ⟨(samplePeriodOf_eq_some_iff.mp h.period).1, modes, h.mode, h.quiet, h.lead, h.window, h.delay, ⟨s0, h.strobe0⟩,
      ⟨s1, h.strobe1⟩, h.groups, fun i => ⟨_, h.term i⟩⟩
  · rintro ⟨hp, modes, hmode, hquiet, hlead, hwindow, hdelay, ⟨s0, h0⟩, ⟨s1, h1⟩, hgroups, hterms⟩
    choose terms hterm using hterms
    exact ⟨_, Image.ofBytes_eq_some_iff.mpr ⟨_, modes, Four.build terms, s0, s1,
      ⟨samplePeriodOf_eq_some_iff.mpr ⟨hp, rfl⟩, hmode, hquiet, hlead, hwindow, hdelay, hgroups,
        fun i => by rw [Four.get_build]; exact hterm i, h0, h1⟩, rfl⟩⟩

end Sys2Proof.Machine

/-!
PROOFS. The image accepted, its fields and their ranges (R168, R184).
-/

namespace Sys2Proof.Machine

-- one declaration after the other: fewer threads at a time
set_option Elab.async false

/-- R184: the mode code of a channel. -/
def modeCode (bytes : List Byte) (i : Nat) : Nat := (bytes.getD 1 0).toNat / 4 ^ (3 - i) % 4

theorem mode_iff {bytes : List Byte} {i : Chan} {m : ChannelMode} :
    channelModeOf (twoBits (imageByte bytes 1) i.val) = some m ↔
      modeCode bytes i.val ≤ 2 ∧ m = [ChannelMode.off, .quad4, .pulseDir].getD (modeCode bytes i.val) .off := by
  rw [channelModeOf_eq_some_iff, twoBits_eq]
  rfl

/-- R184: a channel is active by its code. -/
theorem active_iff {bytes : List Byte} {modes : Four ChannelMode}
    (h : ∀ i : Chan, channelModeOf (twoBits (imageByte bytes 1) i.val) = some (modes.get i)) (i : Chan) :
    (activeOf modes.x0 modes.x1 modes.x2 modes.x3).getLsbD i.val = true ↔ modeCode bytes i.val ≠ 0 := by
  obtain ⟨hle, hm⟩ := mode_iff.mp (h i)
  rw [activeOf_getLsbD, decide_eq_true_eq, hm, ne_eq, modeCode_eq_zero_iff hle]

theorem groupsOk_iff {bytes : List Byte} {modes : Four ChannelMode}
    (h : ∀ i : Chan, channelModeOf (twoBits (imageByte bytes 1) i.val) = some (modes.get i)) :
    groupsOk bytes (activeOf modes.x0 modes.x1 modes.x2 modes.x3) ↔ ∀ g : Group, (imageByte bytes 7).getLsbD g.val = true →
      (mapOf bytes g.val).toNat ≠ 0 ∧
      (∀ i : Chan, (mapOf bytes g.val).getLsbD i.val = true → modeCode bytes i.val ≠ 0) ∧
      (imageWord bytes (12 + 2 * g.val)).toNat ≤ 60000 ∧
      ((imageWord bytes (12 + 2 * g.val)).toNat = 0 ∨
        (imageByte bytes 28).toNat < (imageWord bytes (12 + 2 * g.val)).toNat) := by
  have hmem : ∀ g : Group, g ∈ eight := by decide
  simp only [groupsOk, hmem, true_implies, groupOk, decide_eq_true_eq, groupConfigOf, inactive_eq_zero_iff, active_iff h]
  refine forall_congr' fun g => imp_congr_right fun _ => and_congr_left fun _ => not_congr ?_
  rw [← BitVec.toNat_inj]
  rfl

theorem signals_active_iff {bytes : List Byte} {modes : Four ChannelMode}
    (h : ∀ i : Chan, channelModeOf (twoBits (imageByte bytes 1) i.val) = some (modes.get i)) (signals : BitVec 16) :
    signalChannels signals &&& ~~~(activeOf modes.x0 modes.x1 modes.x2 modes.x3) = 0 ↔
      ∀ i : Chan, modeCode bytes i.val = 0 → signals.toNat / 2 ^ (13 - 3 * i.val) % 8 = 0 := by
  simp only [inactive_eq_zero_iff, active_iff h, signalChannels_getLsbD, decide_eq_true_eq, ← signals_eq_zero_iff]
  exact forall_congr' fun i => ⟨fun hi hz => by_contra fun hne => hi hne hz, fun hi hne hz => hne (hi hz)⟩

theorem term_iff {bytes : List Byte} {modes : Four ChannelMode}
    (h : ∀ i : Chan, channelModeOf (twoBits (imageByte bytes 1) i.val) = some (modes.get i)) (n : Nat) (declared : GroupSet) :
    (∃ t, termOf bytes n (activeOf modes.x0 modes.x1 modes.x2 modes.x3) declared = some t) ↔
      (imageByte bytes n).toNat = 0 ∨
      ((imageByte bytes (n + 1)).toNat ≤ 7 ∧ declared.getLsbD (imageByte bytes (n + 1)).toNat = true ∧
        (imageByte bytes (n + 2)).toNat ≤ 1 ∧ (imageByte bytes (n + 3)).toNat ≤ 1 ∧
        (((imageByte bytes n).toNat = 1 ∧ (imageWord bytes (n + 6)).toNat ≠ 0 ∧
            ∀ i : Chan, modeCode bytes i.val = 0 → (imageWord bytes (n + 6)).toNat / 2 ^ (13 - 3 * i.val) % 8 = 0) ∨
          ((imageByte bytes n).toNat = 2 ∧ (imageByte bytes (n + 10)).toNat ≤ 3 ∧
            modeCode bytes (imageByte bytes (n + 10)).toNat ≠ 0 ∧ (imageByte bytes (n + 11)).toNat ≤ 2))) := by
  have hzero : imageWord bytes (n + 6) ≠ 0 ↔ (imageWord bytes (n + 6)).toNat ≠ 0 := by
    rw [ne_eq, ← BitVec.toNat_inj]
    rfl
  have hchan : (imageByte bytes (n + 10)).toNat ≤ 3 →
      ((activeOf modes.x0 modes.x1 modes.x2 modes.x3).getLsbD (imageByte bytes (n + 10)).toNat = true ↔
        modeCode bytes (imageByte bytes (n + 10)).toNat ≠ 0) := fun hle => active_iff h ⟨_, Nat.lt_succ_of_le hle⟩
  rw [termOf_isSome_iff, hzero, signals_active_iff h]
  refine or_congr_right (and_congr_right fun _ => and_congr_right fun _ => and_congr_right fun _ => and_congr_right fun _ =>
    or_congr_right (and_congr_right fun _ => and_congr_right fun hle => and_congr_left fun _ => hchan hle))

/-- R168: an image is accepted where its fields are in their ranges. -/
theorem Image.accepted_iff {bytes : List Byte} :
    (Image.ofBytes bytes).isSome = true ↔ (imageByte bytes 0).toNat ≤ 3 ∧ (∀ i : Chan, modeCode bytes i.val ≤ 2) ∧
      (imageWord bytes 4).toNat ≤ 60000 ∧
      (1 ≤ (imageByte bytes 28).toNat ∧ (imageByte bytes 28).toNat ≤ 50) ∧
      (1 ≤ (imageByte bytes 29).toNat ∧ (imageByte bytes 29).toNat ≤ 50) ∧ (imageByte bytes 30).toNat ≤ 63 ∧
      (∀ n ∈ [95, 98], ((imageByte bytes n).toNat ≤ 7 ∨ (imageByte bytes n).toNat = 255) ∧
        1 ≤ (imageWord bytes (n + 1)).toNat ∧ (imageWord bytes (n + 1)).toNat ≤ 1000) ∧
      (∀ g : Group, (imageByte bytes 7).getLsbD g.val = true → (mapOf bytes g.val).toNat ≠ 0 ∧
        (∀ i : Chan, (mapOf bytes g.val).getLsbD i.val = true → modeCode bytes i.val ≠ 0) ∧
        (imageWord bytes (12 + 2 * g.val)).toNat ≤ 60000 ∧
        ((imageWord bytes (12 + 2 * g.val)).toNat = 0 ∨
          (imageByte bytes 28).toNat < (imageWord bytes (12 + 2 * g.val)).toNat)) ∧
      ∀ n ∈ [31, 47, 63, 79], (imageByte bytes n).toNat = 0 ∨
        ((imageByte bytes (n + 1)).toNat ≤ 7 ∧ (imageByte bytes 7).getLsbD (imageByte bytes (n + 1)).toNat = true ∧
          (imageByte bytes (n + 2)).toNat ≤ 1 ∧ (imageByte bytes (n + 3)).toNat ≤ 1 ∧
          (((imageByte bytes n).toNat = 1 ∧ (imageWord bytes (n + 6)).toNat ≠ 0 ∧
              ∀ i : Chan, modeCode bytes i.val = 0 → (imageWord bytes (n + 6)).toNat / 2 ^ (13 - 3 * i.val) % 8 = 0) ∨
            ((imageByte bytes n).toNat = 2 ∧ (imageByte bytes (n + 10)).toNat ≤ 3 ∧
              modeCode bytes (imageByte bytes (n + 10)).toNat ≠ 0 ∧ (imageByte bytes (n + 11)).toNat ≤ 2))) := by
  have hterms : ∀ P : Nat → Prop, (∀ i : TermNo, P (31 + 16 * i.val)) ↔ ∀ n ∈ [31, 47, 63, 79], P n := by
    intro P
    simp [Fin.forall_fin_succ]
  have hstrobes : ∀ P : Nat → Prop, (P 95 ∧ P 98) ↔ ∀ n ∈ [95, 98], P n := by simp
  rw [Image.ofBytes_isSome_iff, ← hterms, ← hstrobes]
  refine and_congr_right fun _ => ?_
  constructor
  · rintro ⟨modes, hm, hquiet, hlead, hwindow, hdelay, h0, h1, hgroups, hts⟩
    exact ⟨fun i => (mode_iff.mp (hm i)).1, hquiet, hlead, hwindow, hdelay,
      ⟨strobeOf_isSome_iff.mp h0, strobeOf_isSome_iff.mp h1⟩, (groupsOk_iff hm).mp hgroups,
      fun i => (term_iff hm _ _).mp (hts i)⟩
  · rintro ⟨hcodes, hquiet, hlead, hwindow, hdelay, ⟨h0, h1⟩, hgroups, hts⟩
    have hm : ∀ i : Chan, channelModeOf (twoBits (imageByte bytes 1) i.val) = some ((Four.build fun i : Chan =>
        [ChannelMode.off, .quad4, .pulseDir].getD (modeCode bytes i.val) .off).get i) := fun i => by
      rw [Four.get_build]
      exact mode_iff.mpr ⟨hcodes i, rfl⟩
    exact ⟨_, hm, hquiet, hlead, hwindow, hdelay, strobeOf_isSome_iff.mpr h0, strobeOf_isSome_iff.mpr h1,
      (groupsOk_iff hm).mpr hgroups, fun i => (term_iff hm _ _).mpr (hts i)⟩

/-! ### The fields read (R184) -/

theorem filterOf_eq (n : Nat) (h : n < 4) : filterOf n = [0, 10, 100, 1000].getD n 0 := by
  rcases n with _ | _ | _ | _ | n
  · rfl
  · rfl
  · rfl
  · rfl
  · omega

theorem filterCode_mem : ∀ n < 4, [0, 10, 100, 1000].getD n 0 ∈ [0, 10, 100, 1000] := by decide

theorem imageOf_filters (bytes : List Byte) (period : Nat) (modes : Four ChannelMode) (terms : Four TermConfig)
    (s0 s1 : StrobeConfig) (i : InputNo) :
    (imageOf bytes period modes terms s0 s1).filters.get i =
      [0, 10, 100, 1000].getD ((bytes.getD 6 0).toNat / 4 ^ (3 - i.val) % 4) 0 := by
  have hget : (imageOf bytes period modes terms s0 s1).filters.get i = filterOf (twoBits (imageByte bytes 6) i.val) := by
    fin_cases i <;> rfl
  rw [hget, twoBits_eq, filterOf_eq _ (Nat.mod_lt _ (by decide))]
  rfl

theorem imageOf_monitors (bytes : List Byte) (period : Nat) (modes : Four ChannelMode) (terms : Four TermConfig)
    (s0 s1 : StrobeConfig) (i : Chan) :
    (imageOf bytes period modes terms s0 s1).monitors.get i = monitorsOf (imageWord bytes 2) i.val := by
  fin_cases i <;> rfl

theorem imageOf_groups (bytes : List Byte) (period : Nat) (modes : Four ChannelMode) (terms : Four TermConfig)
    (s0 s1 : StrobeConfig) (g : Group) :
    (imageOf bytes period modes terms s0 s1).groups[g] = groupConfigOf bytes g.val := by
  fin_cases g <;> rfl

/-- R184: a term record's fields. -/
theorem termOf_fields {bytes : List Byte} {n : Nat} {active : ChanSet} {declared : GroupSet} {t : TermConfig}
    (h : termOf bytes n active declared = some t) :
    ((imageByte bytes n).toNat = 0 → t.condition = .none) ∧
    ((imageByte bytes n).toNat ≠ 0 → t.group.val = (imageByte bytes (n + 1)).toNat ∧
      t.mode = (if (imageByte bytes (n + 2)).toNat = 0 then .single else .continuous) ∧
      (t.armedAtJoin = true ↔ (imageByte bytes (n + 3)).toNat = 1) ∧ t.holdoff = (imageWord bytes (n + 4)).toNat) ∧
    ((imageByte bytes n).toNat = 1 → t.condition = .pattern (imageWord bytes (n + 6)) (imageWord bytes (n + 8))) ∧
    ((imageByte bytes n).toNat = 2 → ∃ c : Chan, c.val = (imageByte bytes (n + 10)).toNat ∧
      t.condition = .cross c ([Direction.up, .down, .either].getD (imageByte bytes (n + 11)).toNat .up)
        (word4 (imageByte bytes (n + 12)) (imageByte bytes (n + 13)) (imageByte bytes (n + 14))
          (imageByte bytes (n + 15)))) := by
  obtain ⟨hc, hfields⟩ := termOf_eq_some_iff.mp h
  refine ⟨fun h0 => ?_, fun h0 => ?_, fun h1 => ?_, fun h2 => ?_⟩
  · have := (conditionOf_eq_none_iff (active := active)).mpr h0
    exact Option.some.inj (hc.symm.trans this)
  · rcases hfields with rfl | ⟨-, hg, hm, ha, -, hh⟩
    · exact absurd (conditionOf_eq_none_iff.mp hc) h0
    · exact ⟨groupOf_eq_some_iff.mp hg, (termModeOf_eq_some_iff.mp hm).2, (flagOf_eq_some_iff.mp ha).2, hh⟩
  · cases hcond : t.condition with
    | none =>
      rw [hcond, conditionOf_eq_none_iff] at hc
      omega
    | pattern signals levels =>
      rw [hcond, conditionOf_eq_pattern_iff] at hc
      rw [hc.2.1, hc.2.2.1]
    | cross c d threshold =>
      rw [hcond, conditionOf_eq_cross_iff] at hc
      omega
  · cases hcond : t.condition with
    | none =>
      rw [hcond, conditionOf_eq_none_iff] at hc
      omega
    | pattern signals levels =>
      rw [hcond, conditionOf_eq_pattern_iff] at hc
      omega
    | cross c d threshold =>
      rw [hcond, conditionOf_eq_cross_iff, directionOf_eq_some_iff] at hc
      obtain ⟨-, hchan, -, ⟨-, rfl⟩, rfl⟩ := hc
      exact ⟨c, hchan, rfl⟩

/-- R168: a term record's ranges. -/
theorem termOf_ranges {bytes : List Byte} {n : Nat} {active : ChanSet} {declared : GroupSet} {t : TermConfig}
    (h : termOf bytes n active declared = some t) :
    t.holdoff ≤ 65535 ∧ (t.condition ≠ .none → declared.getLsbD t.group.val = true) ∧
    (∀ signals levels, t.condition = .pattern signals levels → signals ≠ 0 ∧ signalChannels signals &&& ~~~active = 0) ∧
    ∀ c d threshold, t.condition = .cross c d threshold → active.getLsbD c.val = true := by
  obtain ⟨hc, hfields⟩ := termOf_eq_some_iff.mp h
  refine ⟨?_, fun hused => ?_, fun signals levels hcond => ?_, fun c d threshold hcond => ?_⟩
  · rcases hfields with rfl | ⟨-, -, -, -, -, hh⟩
    · exact Nat.zero_le _
    · have := (imageWord bytes (n + 4)).isLt
      omega
  · rcases hfields with rfl | ⟨-, -, -, -, hd, -⟩
    · exact absurd rfl hused
    · exact hd
  · rw [hcond, conditionOf_eq_pattern_iff] at hc
    exact hc.2.2.2
  · rw [hcond, conditionOf_eq_cross_iff] at hc
    exact hc.2.2.1

/-- The three signals of a channel, bit by bit. -/
theorem extractLsb'_three_eq_zero {x : BitVec 16} {n : Nat} (h : x.extractLsb' n 3 = 0) :
    x.getLsbD (n + 2) = false ∧ x.getLsbD (n + 1) = false ∧ x.getLsbD n = false := by
  have hbit : ∀ i < 3, x.getLsbD (n + i) = false := by
    intro i hi
    have := congrArg (fun y => y.getLsbD i) h
    simpa [BitVec.getLsbD_extractLsb', hi] using this
  exact ⟨hbit 2 (by decide), hbit 1 (by decide), hbit 0 (by decide)⟩

theorem word4_toNat (a b c d : Byte) :
    (word4 a b c d).toNat = (a.toNat * 256 + b.toNat) * 65536 + (c.toNat * 256 + d.toNat) := by
  rw [word4, append_toNat, append_toNat, append_toNat]
  omega

end Sys2Proof.Machine

namespace Sys2Proof

-- one declaration after the other: fewer threads at a time
set_option Elab.async false

open Machine

/-- Settles O13: the checks, the fields and the ranges, each by the readers of the image. -/
theorem acceptedImageInRange : Obligations.AcceptedImageInRange := by
  refine ⟨fun bytes => ?_, fun bytes im him => ?_, fun bytes im him => ?_⟩
  · have := Image.accepted_iff (bytes := bytes)
    simp only [imageWord_toNat, mapOf_toNat, ← testBit_toNat] at this
    exact this
  · obtain ⟨p, modes, terms, s0, s1, h, rfl⟩ := Image.ofBytes_eq_some_iff.mp him
    have hw : ∀ n, (imageWord bytes n).toNat = (bytes.getD n 0).toNat * 256 + (bytes.getD (n + 1) 0).toNat :=
      imageWord_toNat bytes
    intro b w
    have hwb : ∀ n, w n = (imageWord bytes n).toNat := fun n => (hw n).symm
    have hstrobe : ∀ n x, strobeOf bytes n = some x →
        x.width = w (n + 1) ∧ x.group.map Fin.val = if b n = 255 then none else some (b n) := by
      intro n x hx
      obtain ⟨-, hwidth, hgroup⟩ := strobeOf_eq_some_iff.mp hx
      refine ⟨hwidth.trans (hwb _).symm, ?_⟩
      have hb : b n = (imageByte bytes n).toNat := rfl
      rw [hb]
      rcases hgroup with ⟨hff, hg⟩ | ⟨g, hg, hval⟩
      · rw [if_pos hff, hg]; rfl
      · rw [if_neg (by have := g.isLt; omega), hg, Option.map_some, hval]
    refine ⟨(samplePeriodOf_eq_some_iff.mp h.period).2, hw 4, rfl, rfl, rfl, rfl, fun i => ⟨?_, ?_, ?_⟩, fun g => ⟨?_, ?_⟩,
      ?_, fun k => ?_⟩
    · exact (mode_iff.mp (h.mode i)).2
    · rw [imageOf_monitors, monitorsOf, hwb]
      rfl
    · exact imageOf_filters ..
    · rw [imageOf_groups]
      exact mapOf_toNat bytes g
    · rw [imageOf_groups, hwb]
      rfl
    · simp only [List.mem_cons, List.not_mem_nil, or_false, forall_eq_or_imp, forall_eq]
      exact ⟨hstrobe 95 s0 h.strobe0, hstrobe 98 s1 h.strobe1⟩
    · obtain ⟨hnone, hfields, hpattern, hcross⟩ := termOf_fields (h.term k)
      intro n term
      have hn : n = 31 + 16 * k.val := rfl
      have hb : ∀ n, b n = (imageByte bytes n).toNat := fun _ => rfl
      refine ⟨hnone, fun hne => ?_, fun h1 => ?_, fun h2 => ?_⟩
      · rw [hwb]
        exact hfields hne
      · exact ⟨_, _, hpattern h1, (hwb _).symm, (hwb _).symm⟩
      · obtain ⟨c, hc, hcond⟩ := hcross h2
        exact ⟨c, _, hcond, hc, word4_toNat ..⟩
  · obtain ⟨p, modes, terms, s0, s1, h, rfl⟩ := Image.ofBytes_eq_some_iff.mp him
    have hgroups := (groupsOk_iff h.mode).mp h.groups
    have hoff : ∀ i : Chan, modes.get i = .off ↔ modeCode bytes i.val = 0 := fun i => by
      obtain ⟨hle, hm⟩ := mode_iff.mp (h.mode i)
      rw [hm, modeCode_eq_zero_iff hle]
    refine ⟨Image.samplePeriod_mem him, h.quiet, h.lead, h.window, h.delay, fun i => ?_, ?_, fun g hg => ?_, fun k => ?_⟩
    · rw [imageOf_filters]
      exact filterCode_mem _ (Nat.mod_lt _ (by decide))
    · have hwidth : ∀ n x, strobeOf bytes n = some x → 1 ≤ x.width ∧ x.width ≤ 1000 := fun n x hx => by
        obtain ⟨hrange, hw, -⟩ := strobeOf_eq_some_iff.mp hx
        exact hw ▸ hrange
      simp only [List.mem_cons, List.not_mem_nil, or_false, forall_eq_or_imp, forall_eq]
      exact ⟨hwidth 95 s0 h.strobe0, hwidth 98 s1 h.strobe1⟩
    · obtain ⟨hne, hmap, hperiod, hlead⟩ := hgroups g hg
      rw [imageOf_groups]
      exact ⟨fun he => hne (congrArg BitVec.toNat he), fun i hi => mt (hoff i).mp (hmap i hi), hperiod, hlead⟩
    · obtain ⟨hholdoff, hdeclared, hpattern, hcross⟩ := termOf_ranges (h.term k)
      refine ⟨hholdoff, hdeclared, ?_⟩
      split
      · trivial
      · rename_i signals levels hcond
        obtain ⟨hne, hactive⟩ := hpattern signals levels hcond
        refine ⟨hne, fun i hi => ?_⟩
        have hzero := (signals_eq_zero_iff signals _).mpr ((signals_active_iff h.mode signals).mp hactive i ((hoff i).mp hi))
        obtain ⟨ha, hb, hr⟩ := extractLsb'_three_eq_zero hzero
        have hi := i.isLt
        exact ⟨by rwa [show 15 - 3 * i.val = 13 - 3 * i.val + 2 by omega],
          by rwa [show 14 - 3 * i.val = 13 - 3 * i.val + 1 by omega], hr⟩
      · rename_i c d threshold hcond
        exact fun he => (active_iff h.mode c).mp (hcross c d threshold hcond) ((hoff c).mp he)

end Sys2Proof

/-!
PROOFS. The readers of the frame formats (R179): each takes from the front of the bytes exactly what its writer puts there.
-/

namespace Sys2Proof.Machine

-- one declaration after the other: fewer threads at a time
set_option Elab.async false

/-- A reader gives back exactly what its writer has put at the front of the bytes, of the values that are `ok`. -/
abbrev Reads {α : Type} (take : List Byte → Option (α × List Byte)) (write : α → List Byte) (ok : α → Prop) : Prop :=
  ∀ p x rest, take p = some (x, rest) ↔ ok x ∧ p = write x ++ rest

/-- One reader after another. -/
theorem Reads.bind_iff {α β : Type} {take : List Byte → Option (α × List Byte)} {write : α → List Byte} {ok : α → Prop}
    (h : ∀ p x rest, take p = some (x, rest) ↔ ok x ∧ p = write x ++ rest) {p : List Byte} {g : α × List Byte → Option β}
    {y : β} : (take p >>= g) = some y ↔ ∃ x rest, (ok x ∧ p = write x ++ rest) ∧ g (x, rest) = some y := by
  simp only [Option.bind_eq_bind, Option.bind_eq_some_iff, Prod.exists, h]

/-- What has been written is read. -/
theorem Reads.step {α β : Type} {take : List Byte → Option (α × List Byte)} {write : α → List Byte} {ok : α → Prop}
    (h : ∀ p x rest, take p = some (x, rest) ↔ ok x ∧ p = write x ++ rest) {g : α × List Byte → Option β} {y : β} {x : α}
    {rest : List Byte} (hx : ok x) (hg : g (x, rest) = some y) : (take (write x ++ rest) >>= g) = some y :=
  (Reads.bind_iff h).mpr ⟨x, rest, ⟨hx, rfl⟩, hg⟩

/-! ### Parts of a word -/

/-- A word by its two parts. -/
theorem append_eq_iff {n m : Nat} (a : BitVec n) (b : BitVec m) (x : BitVec (n + m)) :
    a ++ b = x ↔ a = x.extractLsb' m n ∧ b = x.extractLsb' 0 m := by
  constructor
  · rintro rfl
    exact ⟨(BitVec.extractLsb'_append_eq_left).symm, (BitVec.extractLsb'_append_eq_right).symm⟩
  · rintro ⟨rfl, rfl⟩
    exact BitVec.extractLsb'_append_extractLsb'

theorem extractLsb'_extractLsb' {w : Nat} (x : BitVec w) {m n i k : Nat} (h : i + k ≤ n) :
    (x.extractLsb' m n).extractLsb' i k = x.extractLsb' (m + i) k := by
  refine BitVec.eq_of_getLsbD_eq fun j hj => ?_
  simp only [BitVec.getLsbD_extractLsb', hj, decide_true, Bool.true_and, show i + j < n by omega, Nat.add_assoc]

/-- A part of a word by its two parts. -/
theorem append_eq_part_iff {n m w i : Nat} (a : BitVec n) (b : BitVec m) (x : BitVec w) :
    a ++ b = x.extractLsb' i (n + m) ↔ a = x.extractLsb' (i + m) n ∧ b = x.extractLsb' i m := by
  rw [append_eq_iff, extractLsb'_extractLsb' x (le_of_eq (Nat.add_comm m n)), extractLsb'_extractLsb' x (by omega), Nat.add_zero]

/-- A bit as a part of a word. -/
theorem ofBool_eq_part_iff {w i : Nat} (c : Bool) (x : BitVec w) : BitVec.ofBool c = x.extractLsb' i 1 ↔ x.getLsbD i = c := by
  have hbit : ∀ (c : Bool) (y : BitVec 1), BitVec.ofBool c = y ↔ y.getLsbD 0 = c := by decide
  rw [hbit, BitVec.getLsbD_extractLsb']
  simp

/-- A byte as a part of itself. -/
theorem eq_byte_iff (b c : Byte) : b = c ↔ c = b.extractLsb' 0 8 := by rw [BitVec.extractLsb'_eq_self, eq_comm]

/-! ### Bytes and words -/

theorem takeByte_reads : Reads takeByte (fun b => [b]) fun _ => True := by
  intro p x rest
  cases p with
  | nil => simp [takeByte]
  | cons b p => simp [takeByte]

theorem word2_eq_iff (a b : Byte) (x : BitVec 16) : word2 a b = x ↔ [a, b] = bytes2 x := by
  simp [word2, bytes2, byteAt, append_eq_iff (n := 8) (m := 8)]

theorem word4_eq_iff (a b c d : Byte) (x : BitVec 32) : word4 a b c d = x ↔ [a, b, c, d] = bytes4 x := by
  simp [word4, bytes4, byteAt, append_eq_iff (n := 24) (m := 8), append_eq_iff (n := 16) (m := 8),
    append_eq_iff (n := 8) (m := 8), extractLsb'_extractLsb', and_assoc]

theorem word6_eq_iff (a b c d e f : Byte) (x : Time) : word6 a b c d e f = x ↔ [a, b, c, d, e, f] = bytes6 x := by
  simp [word6, bytes6, byteAt, append_eq_iff (n := 40) (m := 8), append_eq_iff (n := 32) (m := 8),
    append_eq_iff (n := 24) (m := 8), append_eq_iff (n := 16) (m := 8),
    append_eq_iff (n := 8) (m := 8), extractLsb'_extractLsb', and_assoc]

theorem take2_reads : Reads take2 bytes2 fun _ => True := by
  intro p x rest
  rcases p with _ | ⟨a, _ | ⟨b, p⟩⟩
  · simp [take2, bytes2]
  · simp [take2, bytes2]
  · simp only [take2, Option.some.injEq, Prod.mk.injEq, word2_eq_iff, true_and]
    simp [bytes2, and_assoc]

theorem take4_reads : Reads take4 bytes4 fun _ => True := by
  intro p x rest
  rcases p with _ | ⟨a, _ | ⟨b, _ | ⟨c, _ | ⟨d, p⟩⟩⟩⟩
  · simp [take4, bytes4]
  · simp [take4, bytes4]
  · simp [take4, bytes4]
  · simp [take4, bytes4]
  · simp only [take4, Option.some.injEq, Prod.mk.injEq, word4_eq_iff, true_and]
    simp [bytes4, and_assoc]

theorem take6_reads : Reads take6 bytes6 fun _ => True := by
  intro p x rest
  rcases p with _ | ⟨a, _ | ⟨b, _ | ⟨c, _ | ⟨d, _ | ⟨e, _ | ⟨f, p⟩⟩⟩⟩⟩⟩
  · simp [take6, bytes6]
  · simp [take6, bytes6]
  · simp [take6, bytes6]
  · simp [take6, bytes6]
  · simp [take6, bytes6]
  · simp [take6, bytes6]
  · simp only [take6, Option.some.injEq, Prod.mk.injEq, word6_eq_iff, true_and]
    simp [bytes6, and_assoc]

/-! ### Codes -/

/-- A byte has a meaning exactly where it is its code. -/
abbrev Codes {α : Type} (of : Byte → Option α) (code : α → Byte) (ok : α → Prop) : Prop :=
  ∀ b x, of b = some x ↔ ok x ∧ b = code x

theorem takeCoded_reads {α : Type} {of : Byte → Option α} {code : α → Byte} {ok : α → Prop} (h : Codes of code ok) :
    Reads (takeCoded of) (fun x => [code x]) ok := by
  intro p x rest
  cases p with
  | nil => simp [takeCoded, takeByte]
  | cons b p => simp [takeCoded, takeByte, h b, and_assoc]

/-- A list of codes: every byte with a meaning is the code of it, and every code has its meaning. -/
theorem codes_of {α : Type} {of : Byte → Option α} {code : α → Byte} (hcode : ∀ x, of (code x) = some x)
    (hof : ∀ b x, of b = some x → b.toNat = (code x).toNat) : Codes of code fun _ => True := by
  intro b x
  refine ⟨fun h => ⟨trivial, BitVec.eq_of_toNat_eq (hof b x h)⟩, ?_⟩
  rintro ⟨-, rfl⟩
  exact hcode x

theorem timeState_codes : Codes timeStateOf timeStateCode fun _ => True := by
  refine codes_of (fun x => by cases x <;> rfl) fun b x h => ?_
  unfold timeStateOf at h
  split at h <;> cases h <;> assumption

theorem lifecycle_codes : Codes lifecycleOf lifecycleCode fun _ => True := by
  refine codes_of (fun x => by cases x <;> rfl) fun b x h => ?_
  unfold lifecycleOf at h
  split at h <;> cases h <;> assumption

theorem cause_codes : Codes causeOf causeCode fun _ => True := by
  refine codes_of (fun x => by cases x <;> rfl) fun b x h => ?_
  unfold causeOf at h
  split at h <;> cases h <;> assumption

theorem callKind_codes : Codes callKindOf callKindCode fun _ => True := by
  refine codes_of (fun x => by cases x <;> rfl) fun b x h => ?_
  unfold callKindOf at h
  split at h <;> cases h <;> assumption

theorem flag_codes : Codes flagOf flagCode fun _ => True := by
  refine codes_of (fun x => by cases x <;> rfl) fun b x h => ?_
  unfold flagOf at h
  split at h <;> cases h <;> assumption

theorem decline_codes : Codes declineOf declineCode fun _ => True := by
  refine codes_of (fun x => by cases x <;> rfl) fun b x h => ?_
  unfold declineOf at h
  split at h <;> cases h <;> assumption

theorem result_codes : Codes resultOf resultCode fun _ => True := by
  refine codes_of (fun x => by cases x <;> rfl) fun b x h => ?_
  unfold resultOf at h
  split at h <;> cases h <;> assumption

theorem refusal_codes : Codes refusalOf refusalCode fun _ => True := by
  refine codes_of (fun x => by cases x <;> rfl) fun b x h => ?_
  unfold refusalOf at h
  split at h <;> cases h <;> assumption

/-- R179: an identity's byte. -/
theorem setWidth_eq_iff {b : Byte} {x : Ident} : b.toNat ≤ 31 ∧ b.setWidth 5 = x ↔ b = x.setWidth 8 := by
  have hx := x.isLt
  simp only [← BitVec.toNat_inj, BitVec.toNat_setWidth]
  omega

theorem ident_codes : Codes identOf (BitVec.setWidth 8) fun x => x ≠ 0 := by
  intro b x
  rw [identOf, Option.ite_none_right_eq_some, Option.some.injEq, and_assoc, setWidth_eq_iff]
  refine and_congr_left fun h => ?_
  have hx := x.isLt
  subst h
  simp only [ne_eq, ← BitVec.toNat_inj, BitVec.toNat_setWidth]
  have : (0 : Ident).toNat = 0 := rfl
  omega

theorem sender_codes : Codes senderOf (BitVec.setWidth 8) fun _ => True := by
  intro b x
  rw [senderOf, Option.ite_none_right_eq_some, Option.some.injEq, setWidth_eq_iff, true_and]

theorem group_codes : Codes groupOf (fun g => byteOf g.val) fun _ => True := by
  intro b g
  have hg := g.isLt
  have htoNat : (byteOf g.val).toNat = g.val := by
    unfold byteOf
    rw [BitVec.toNat_ofNat]
    omega
  rw [groupOf_eq_some_iff, true_and, ← BitVec.toNat_inj, htoNat, eq_comm]

theorem count_codes {low high : Nat} (h : high < 256) : Codes (countOf low high) byteOf fun n => low ≤ n ∧ n ≤ high := by
  intro b n
  have hb := b.isLt
  simp only [countOf, Option.ite_none_right_eq_some, Option.some.injEq, byteOf, ← BitVec.toNat_inj, BitVec.toNat_ofNat]
  omega

end Sys2Proof.Machine

/-!
PROOFS. The payloads (R180 to R183): each is read exactly where it is the writing of a frame within its format.
-/

namespace Sys2Proof.Machine

-- one declaration after the other: fewer threads at a time
set_option Elab.async false

/-! ### Tags and sets -/

theorem tag_iff {k f : Byte} {n : BitVec 16} {t : Tag} :
    tagOf k f n = some t ↔ tagEncodable t = true ∧ [k, f] ++ bytes2 n = tagBytes t := by
  have hkind : ∀ {c : Byte}, k.toNat = c.toNat ↔ k = c := BitVec.toNat_inj
  have hbytes : ∀ {m : BitVec 16}, bytes2 n = bytes2 m ↔ n = m := by
    intro m
    rw [bytes2, ← word2_eq_iff]
    have := (word2_eq_iff (byteAt n 1) (byteAt n 0) n).mpr rfl
    rw [this]
  unfold tagOf
  split
  · rename_i h
    have hk : k = 0 := hkind.mp h
    simp only [Option.map_eq_some_iff, ident_codes f]
    cases t with
    | station i m =>
      simp only [Tag.station.injEq, tagEncodable, decide_eq_true_eq, tagBytes, hk, List.cons_append, List.nil_append,
        List.cons.injEq, true_and, hbytes]
      constructor
      · rintro ⟨_, ⟨hi, hf⟩, rfl, hn⟩
        exact ⟨hi, hf, hn⟩
      · rintro ⟨hi, hf, hn⟩
        exact ⟨i, ⟨hi, hf⟩, rfl, hn⟩
    | cadence g m => simp [tagBytes, hk]
  · rename_i h
    have hk : k = 1 := hkind.mp h
    simp only [Option.map_eq_some_iff, group_codes f]
    cases t with
    | station i m => simp [tagBytes, hk]
    | cadence g m =>
      simp only [Tag.cadence.injEq, tagEncodable, tagBytes, hk, List.cons_append, List.nil_append, List.cons.injEq, true_and,
        hbytes]
      constructor
      · rintro ⟨_, hf, rfl, hn⟩
        exact ⟨hf, hn⟩
      · rintro ⟨hf, hn⟩
        exact ⟨g, hf, rfl, hn⟩
  · rename_i h0 h1
    have hne : k ≠ 0 ∧ k ≠ 1 := ⟨fun h => h0 (hkind.mpr h), fun h => h1 (hkind.mpr h)⟩
    refine iff_of_false (by simp) fun ⟨_, h⟩ => ?_
    cases t with
    | station i m => exact hne.1 (List.cons.inj h).1
    | cadence g m => exact hne.2 (List.cons.inj h).1

theorem tagBytes_length (t : Tag) : (tagBytes t).length = 4 := by
  cases t <;> rfl

theorem takeTag_reads : Reads takeTag tagBytes fun t => tagEncodable t = true := by
  intro p t rest
  have hshort : p.length < 4 → p ≠ tagBytes t ++ rest := by
    rintro h rfl
    rw [List.length_append, tagBytes_length] at h
    omega
  rcases p with _ | ⟨k, _ | ⟨f, _ | ⟨a, _ | ⟨b, p⟩⟩⟩⟩
  · simp [takeTag, hshort]
  · simp [takeTag, hshort]
  · simp [takeTag, hshort]
  · simp [takeTag, hshort]
  · have hbytes : [k, f, a, b] = [k, f] ++ bytes2 (word2 a b) := by
      rw [← (word2_eq_iff a b _).mp rfl]
      rfl
    have hsplit : k :: f :: a :: b :: p = tagBytes t ++ rest ↔ [k, f, a, b] = tagBytes t ∧ p = rest := by
      rw [show k :: f :: a :: b :: p = [k, f, a, b] ++ p from rfl]
      exact ⟨fun h => List.append_inj h (tagBytes_length t).symm, fun ⟨h, h'⟩ => by rw [h, h']⟩
    simp only [takeTag, Option.map_eq_some_iff, Prod.mk.injEq, tag_iff, hsplit, hbytes]
    constructor
    · rintro ⟨_, ⟨ht, he⟩, rfl, rfl⟩
      exact ⟨ht, he, rfl⟩
    · rintro ⟨ht, he, rfl⟩
      exact ⟨t, ⟨ht, he⟩, rfl, rfl⟩

theorem takeIdSet_reads : Reads takeIdSet bytes4 fun x => x.getLsbD 0 = false := by
  intro p x rest
  unfold takeIdSet
  cases h : take4 p with
  | none =>
    have hno := (take4_reads p x rest).not.mp (by simp [h])
    simpa using fun _ => hno
  | some wr =>
    obtain ⟨w, r⟩ := wr
    obtain ⟨-, rfl⟩ := (take4_reads p w r).mp h
    have hinj : bytes4 w ++ r = bytes4 x ++ rest ↔ w = x ∧ r = rest := by
      have := take4_reads (bytes4 w ++ r) x rest
      rw [h] at this
      simpa using this.symm
    rw [Option.ite_none_left_eq_some, Option.some.injEq, Prod.mk.injEq, hinj]
    constructor
    · rintro ⟨hw, rfl, rfl⟩
      exact ⟨by simpa using hw, rfl, rfl⟩
    · rintro ⟨hw, rfl, rfl⟩
      exact ⟨by simpa using hw, rfl, rfl⟩

/-! ### The fixed-length payloads (R180) -/

theorem beacon_iff {p : List Byte} {f : BeaconFrame} : BeaconFrame.decode p = some f ↔ f.encode = p := by
  simp only [BeaconFrame.decode, Option.bind_eq_bind, Option.bind_eq_some_iff, Prod.exists, take6_reads, takeByte_reads,
    takeCoded_reads lifecycle_codes, takeCoded_reads timeState_codes, takeCoded_reads cause_codes,
    Option.ite_none_right_eq_some, Option.some.injEq, true_and]
  constructor
  · rintro ⟨a, _, rfl, b, _, rfl, c, _, rfl, d, _, rfl, e, _, rfl, rfl, rfl⟩
    rfl
  · rintro rfl
    exact ⟨_, _, rfl, _, _, rfl, _, _, rfl, _, _, rfl, _, _, rfl, rfl, rfl⟩

theorem leave_iff {p : List Byte} {b : Byte} : leaveDecode p = some b ↔ [b] = p := by
  simp only [leaveDecode, Option.bind_eq_bind, Option.bind_eq_some_iff, Prod.exists, takeByte_reads,
    Option.ite_none_right_eq_some, Option.some.injEq, true_and]
  constructor
  · rintro ⟨a, _, rfl, rfl, rfl⟩
    rfl
  · rintro rfl
    exact ⟨_, _, rfl, rfl, rfl⟩

theorem preset_iff {p : List Byte} {f : PresetFrame} : PresetFrame.decode p = some f ↔ f.encode = p := by
  simp only [PresetFrame.decode, Option.bind_eq_bind, Option.bind_eq_some_iff, Prod.exists, take6_reads, take4_reads,
    takeCoded_reads group_codes, Option.ite_none_right_eq_some, Option.some.injEq, true_and]
  constructor
  · rintro ⟨a, _, rfl, b, _, rfl, c, _, rfl, rfl, rfl⟩
    simp [PresetFrame.encode]
  · rintro rfl
    exact ⟨f.group, _, rfl, f.time, bytes4 f.value, rfl, f.value, [], (List.append_nil _).symm, rfl, rfl⟩

theorem request_iff {p : List Byte} {f : RequestFrame} :
    RequestFrame.decode p = some f ↔ f.target ≠ 0 ∧ f.encode = p := by
  simp only [RequestFrame.decode, Option.bind_eq_bind, Option.bind_eq_some_iff, Prod.exists, takeByte_reads,
    takeCoded_reads ident_codes, Option.ite_none_right_eq_some, Option.some.injEq, true_and]
  constructor
  · rintro ⟨a, _, ⟨ha, rfl⟩, b, _, rfl, c, _, rfl, d, _, rfl, rfl, rfl⟩
    exact ⟨ha, rfl⟩
  · rintro ⟨ha, rfl⟩
    exact ⟨_, _, ⟨ha, rfl⟩, _, _, rfl, _, _, rfl, _, _, rfl, rfl, rfl⟩

/-! ### CALL and CLOSE (R181) -/

theorem call_iff {p : List Byte} {f : CallFrame} :
    CallFrame.decode p = some f ↔ tagEncodable f.tag = true ∧ f.encode = p := by
  simp only [CallFrame.decode, Option.bind_eq_bind, Option.bind_eq_some_iff, Prod.exists, takeTag_reads, take6_reads,
    takeCoded_reads group_codes, takeCoded_reads callKind_codes, takeCoded_reads flag_codes,
    Option.ite_none_right_eq_some, Option.some.injEq, true_and]
  constructor
  · rintro ⟨a, _, ⟨ha, rfl⟩, b, _, rfl, c, _, rfl, d, _, rfl, e, _, rfl, rfl, rfl⟩
    exact ⟨ha, by simp [CallFrame.encode]⟩
  · rintro ⟨ha, rfl⟩
    refine ⟨f.tag, _, ⟨ha, ?_⟩, f.group, _, rfl, f.time, _, rfl, f.kind, _, rfl, f.fireLost, [], rfl, rfl, rfl⟩
    simp [CallFrame.encode]

theorem close_iff {p : List Byte} {f : CloseFrame} :
    CloseFrame.decode p = some f ↔ (tagEncodable f.tag = true ∧ f.consistent = true ∧ f.responders.getLsbD 0 = false ∧
      f.decliners.getLsbD 0 = false ∧ f.missing.getLsbD 0 = false) ∧ f.encode = p := by
  simp only [CloseFrame.decode, Option.bind_eq_bind, Option.bind_eq_some_iff, Prod.exists, takeTag_reads, takeIdSet_reads,
    takeCoded_reads flag_codes, Option.ite_none_right_eq_some, Option.some.injEq, true_and]
  constructor
  · rintro ⟨a, _, ⟨ha, rfl⟩, b, _, rfl, c, _, ⟨hc, rfl⟩, d, _, ⟨hd, rfl⟩, e, _, ⟨he, rfl⟩, ⟨rfl, hf⟩, rfl⟩
    exact ⟨⟨ha, hf, hc, hd, he⟩, by simp [CloseFrame.encode]⟩
  · rintro ⟨⟨ha, hf, hc, hd, he⟩, rfl⟩
    refine ⟨f.tag, _, ⟨ha, ?_⟩, !f.complete, _, rfl, f.responders, _, ⟨hc, rfl⟩, f.decliners, _, ⟨hd, rfl⟩, f.missing, [],
      ⟨he, rfl⟩, ⟨rfl, ?_⟩, ?_⟩
    · simp [CloseFrame.encode]
    · simpa using hf
    · simp

end Sys2Proof.Machine

/-!
PROOFS. REPORT and REPLY (R182, R183), and the whole frame (R135, R178): a frame within its formats is read from its own
bytes and from no others.
-/

namespace Sys2Proof.Machine

-- one declaration after the other: fewer threads at a time
set_option Elab.async false

/-! ### Bytes of several fields -/

theorem qualityOf_iff {x : BitVec 2} {q : Quality} : qualityOf x.toNat = some q ↔ x = qualityCode q := by
  revert x
  cases q <;> decide

theorem qualityOf_eq_none_iff {x : BitVec 2} : qualityOf x.toNat = none ↔ x = 3 := by
  revert x
  decide

theorem termPhaseOf_iff {x : BitVec 2} {t : TermPhase} : termPhaseOf x.toNat = some t ↔ x = termPhaseCode t := by
  revert x
  cases t <;> decide

/-- R182: the header byte by its fields. -/
theorem entryHeader_eq_iff {chan : Chan} {quality : BitVec 2} {after : Bool} {h : Byte} :
    h = entryHeader chan quality after ↔ h.extractLsb' 0 3 = 0 ∧ (h.extractLsb' 6 2).toFin = chan ∧
      h.extractLsb' 4 2 = quality ∧ h.getLsbD 3 = after := by
  have hchan : BitVec.ofNat 2 chan.val = h.extractLsb' 6 2 ↔ (h.extractLsb' 6 2).toFin = chan := by
    rw [← BitVec.toNat_inj, BitVec.toNat_ofNat, Nat.mod_eq_of_lt chan.isLt, Fin.ext_iff, eq_comm]
    rfl
  rw [eq_byte_iff, entryHeader, append_eq_part_iff (n := 5) (m := 3), append_eq_part_iff (n := 4) (m := 1),
    append_eq_part_iff (n := 2) (m := 2), ofBool_eq_part_iff, hchan]
  exact ⟨fun ⟨⟨⟨hc, hq⟩, ha⟩, h0⟩ => ⟨h0.symm, hc, hq.symm, ha⟩, fun ⟨h0, hc, hq, ha⟩ => ⟨⟨⟨hc, hq.symm⟩, ha⟩, h0.symm⟩⟩

/-- R183: a channel's status byte by its fields. -/
theorem statusByte_eq_iff {c : ChannelStatus} {b : Byte} :
    b = statusByte c ↔ b.extractLsb' 6 2 = qualityCode c.quality ∧
      c.latched = ⟨b.getLsbD 5, b.getLsbD 4, b.getLsbD 3⟩ ∧ c.causes = ⟨b.getLsbD 2, b.getLsbD 1, b.getLsbD 0⟩ := by
  obtain ⟨q, ⟨la, lb, lr⟩, ⟨ca, cb, cr⟩, count, epoch⟩ := c
  rw [eq_byte_iff, statusByte, append_eq_part_iff (n := 7) (m := 1), append_eq_part_iff (n := 6) (m := 1),
    append_eq_part_iff (n := 5) (m := 1), append_eq_part_iff (n := 4) (m := 1), append_eq_part_iff (n := 3) (m := 1),
    append_eq_part_iff (n := 2) (m := 1)]
  simp only [ofBool_eq_part_iff, Lines.mk.injEq]
  exact ⟨fun ⟨⟨⟨⟨⟨⟨hq, h5⟩, h4⟩, h3⟩, h2⟩, h1⟩, h0⟩ => ⟨hq.symm, ⟨h5.symm, h4.symm, h3.symm⟩, h2.symm, h1.symm, h0.symm⟩,
    fun ⟨hq, ⟨h5, h4, h3⟩, h2, h1, h0⟩ => ⟨⟨⟨⟨⟨⟨hq.symm, h5.symm⟩, h4.symm⟩, h3.symm⟩, h2.symm⟩, h1.symm⟩, h0.symm⟩⟩

theorem termStatus_codes : Codes termStatusOf TermStatus.encode fun _ => True := by
  intro b t
  obtain ⟨p, x, y⟩ := t
  have hbyte : b = TermStatus.encode ⟨p, x, y⟩ ↔ b.extractLsb' 0 4 = 0 ∧ b.extractLsb' 6 2 = termPhaseCode p ∧
      b.getLsbD 5 = x ∧ b.getLsbD 4 = y := by
    rw [eq_byte_iff, TermStatus.encode, append_eq_part_iff (n := 4) (m := 4), append_eq_part_iff (n := 3) (m := 1),
      append_eq_part_iff (n := 2) (m := 1), ofBool_eq_part_iff, ofBool_eq_part_iff]
    exact ⟨fun ⟨⟨⟨hp, hx⟩, hy⟩, h0⟩ => ⟨h0.symm, hp.symm, hx, hy⟩, fun ⟨h0, hp, hx, hy⟩ => ⟨⟨⟨hp.symm, hx⟩, hy⟩, h0.symm⟩⟩
  rw [termStatusOf, Option.ite_none_left_eq_some, Option.map_eq_some_iff, not_not, hbyte, true_and]
  simp only [termPhaseOf_iff, TermStatus.mk.injEq]
  exact and_congr_right fun _ => ⟨fun ⟨_, h, hp, hx, hy⟩ => ⟨hp ▸ h, hx, hy⟩, fun ⟨h, hx, hy⟩ => ⟨p, h, rfl, hx, hy⟩⟩

/-! ### REPORT (R182) -/

theorem takeBefore_reads : Reads takeBefore (fun b => bytes4 b.count ++ bytes2 b.offset ++ [b.epoch])
    fun b => beforeOffsetOk b.offset = true := by
  intro p b rest
  simp only [takeBefore, Option.bind_eq_bind, Option.bind_eq_some_iff, Prod.exists, takeByte_reads, take4_reads, take2_reads,
    Option.ite_none_right_eq_some, Option.some.injEq, Prod.mk.injEq, true_and]
  constructor
  · rintro ⟨x, _, rfl, y, _, rfl, z, _, rfl, ho, rfl, rfl⟩
    exact ⟨ho, by simp⟩
  · rintro ⟨ho, rfl⟩
    exact ⟨b.count, _, by simp, b.offset, _, rfl, b.epoch, _, rfl, ho, rfl, rfl⟩

theorem takeAfter_reads : Reads takeAfter (fun a => bytes4 a.count ++ bytes2 a.offset)
    fun a => afterOffsetOk a.offset = true := by
  intro p a rest
  simp only [takeAfter, Option.bind_eq_bind, Option.bind_eq_some_iff, Prod.exists, take4_reads, take2_reads,
    Option.ite_none_right_eq_some, Option.some.injEq, Prod.mk.injEq, true_and]
  constructor
  · rintro ⟨x, _, rfl, y, _, rfl, ho, rfl, rfl⟩
    exact ⟨ho, by simp⟩
  · rintro ⟨ho, rfl⟩
    exact ⟨a.count, _, by simp, a.offset, _, rfl, ho, rfl, rfl⟩

/-- R182: the quality code of a reading, and whether it has an after sample. -/
def Reading.header : Reading → BitVec 2 × Bool
  | .stale => (3, false)
  | .sampled q _ none => (qualityCode q, false)
  | .sampled q _ (some _) => (qualityCode q, true)

/-- R182: the samples of a reading. -/
def Reading.samples : Reading → List Byte
  | .stale => []
  | .sampled _ b none => bytes4 b.count ++ bytes2 b.offset ++ [b.epoch]
  | .sampled _ b (some a) => bytes4 b.count ++ bytes2 b.offset ++ [b.epoch] ++ (bytes4 a.count ++ bytes2 a.offset)

theorem ChannelEntry.encode_eq (e : ChannelEntry) :
    e.encode = entryHeader e.chan e.reading.header.1 e.reading.header.2 :: e.reading.samples := by
  obtain ⟨chan, _ | ⟨q, b, _ | a⟩⟩ := e
  · rfl
  · rfl
  · simp [ChannelEntry.encode, Reading.header, Reading.samples]

/-- R182: the reading that follows a header, read from the bytes behind it. -/
def takeReading (code : BitVec 2) (after : Bool) (p : List Byte) : Option (Reading × List Byte) :=
  match qualityOf code.toNat, after with
  | none, true => none
  | none, false => some (.stale, p)
  | some q, false => (takeBefore p).map fun x => (.sampled q x.1 none, x.2)
  | some q, true => (takeBefore p).bind fun x => (takeAfter x.2).map fun y => (.sampled q x.1 (some y.1), y.2)

theorem takeEntry_cons (h : Byte) (p : List Byte) :
    takeEntry (h :: p) = if h.extractLsb' 0 3 = 0 then
      (takeReading (h.extractLsb' 4 2) (h.getLsbD 3) p).map fun x => (⟨(h.extractLsb' 6 2).toFin, x.1⟩, x.2) else none := by
  simp only [takeEntry, takeByte, Option.bind_eq_bind, Option.bind_some, takeReading]
  by_cases h0 : h.extractLsb' 0 3 = 0
  · rw [if_neg (by simp [h0]), if_pos h0]
    cases qualityOf (h.extractLsb' 4 2).toNat with
    | none => cases h.getLsbD 3 <;> rfl
    | some q =>
      cases h.getLsbD 3 with
      | false => cases takeBefore p <;> rfl
      | true =>
        cases takeBefore p with
        | none => rfl
        | some x => simp only [Option.bind_some]; cases takeAfter x.2 <;> rfl
  · rw [if_pos h0, if_neg h0]

theorem qualityCode_ne (q : Quality) : qualityCode q ≠ 3#2 := by cases q <;> decide

theorem qualityCode_inj {q q' : Quality} : qualityCode q = qualityCode q' ↔ q = q' := by
  cases q <;> cases q' <;> decide

theorem takeReading_iff {code : BitVec 2} {after : Bool} {p rest : List Byte} {x : Reading} :
    takeReading code after p = some (x, rest) ↔
      ChannelEntry.encodable ⟨0, x⟩ = true ∧ (code = x.header.1 ∧ after = x.header.2) ∧ p = x.samples ++ rest := by
  unfold takeReading
  cases hq : qualityOf code.toNat with
  | none =>
    rw [qualityOf_eq_none_iff.mp hq]
    rcases x with _ | ⟨q', b, _ | a⟩ <;> cases after <;>
      simp [Reading.header, Reading.samples, ChannelEntry.encodable, (qualityCode_ne _).symm]
  | some q =>
    rw [qualityOf_iff.mp hq]
    cases after with
    | false =>
      rcases x with _ | ⟨q', b, _ | a⟩
      · simp [Reading.header, qualityCode_ne]
      · simp only [Option.map_eq_some_iff, Prod.exists, takeBefore_reads, Prod.mk.injEq, Reading.sampled.injEq,
          Reading.header, qualityCode_inj, and_true, Reading.samples, ChannelEntry.encodable]
        constructor
        · rintro ⟨_, _, h, ⟨rfl, rfl⟩, rfl⟩
          exact ⟨h.1, rfl, h.2⟩
        · rintro ⟨h, rfl, h'⟩
          exact ⟨b, rest, ⟨h, h'⟩, ⟨rfl, rfl⟩, rfl⟩
      · simp [Reading.header]
    | true =>
      rcases x with _ | ⟨q', b, _ | a⟩
      · simp [Option.bind_eq_some_iff, Reading.header]
      · simp [Option.bind_eq_some_iff, Reading.header]
      · simp only [Option.bind_eq_some_iff, Option.map_eq_some_iff, Prod.exists, takeBefore_reads, takeAfter_reads,
          Prod.mk.injEq, Reading.sampled.injEq, Option.some.injEq, Reading.header, qualityCode_inj, and_true,
          Reading.samples, ChannelEntry.encodable, Bool.and_eq_true]
        constructor
        · rintro ⟨_, _, ⟨hb, rfl⟩, _, _, ⟨ha, rfl⟩, ⟨rfl, rfl, rfl⟩, rfl⟩
          exact ⟨⟨hb, ha⟩, rfl, by simp⟩
        · rintro ⟨⟨hb, ha⟩, rfl, rfl⟩
          exact ⟨b, bytes4 a.count ++ bytes2 a.offset ++ rest, ⟨hb, by simp⟩, a, rest, ⟨ha, rfl⟩, ⟨rfl, rfl, rfl⟩, rfl⟩

theorem takeEntry_reads : Reads takeEntry ChannelEntry.encode fun e => e.encodable = true := by
  rintro p ⟨chan, x⟩ rest
  rw [ChannelEntry.encode_eq, List.cons_append]
  cases p with
  | nil => simp [takeEntry, takeByte]
  | cons h p =>
    rw [takeEntry_cons, Option.ite_none_right_eq_some, Option.map_eq_some_iff, List.cons.injEq, entryHeader_eq_iff]
    have hok : ChannelEntry.encodable ⟨chan, x⟩ = ChannelEntry.encodable ⟨0, x⟩ := rfl
    simp only [Prod.exists, takeReading_iff, Prod.mk.injEq, ChannelEntry.mk.injEq, hok]
    constructor
    · rintro ⟨h0, _, _, ⟨he, ⟨hq, ha⟩, rfl⟩, ⟨rfl, rfl⟩, rfl⟩
      exact ⟨he, ⟨h0, rfl, hq, ha⟩, rfl⟩
    · rintro ⟨he, ⟨h0, hc, hq, ha⟩, rfl⟩
      exact ⟨h0, x, rest, ⟨he, ⟨hq, ha⟩, rfl⟩, ⟨hc, rfl⟩, rfl⟩

theorem takeEntries_reads (n : Nat) : Reads (takeEntries n) (fun es => es.flatMap ChannelEntry.encode)
    fun es => es.length = n ∧ es.all ChannelEntry.encodable = true := by
  induction n with
  | zero =>
    intro p es rest
    simp only [takeEntries, Option.some.injEq, Prod.mk.injEq, List.length_eq_zero_iff]
    constructor
    · rintro ⟨rfl, rfl⟩
      exact ⟨⟨rfl, rfl⟩, rfl⟩
    · rintro ⟨⟨rfl, -⟩, rfl⟩
      exact ⟨rfl, rfl⟩
  | succ n ih =>
    intro p es rest
    simp only [takeEntries, Option.bind_eq_bind, Option.bind_eq_some_iff, Prod.exists, takeEntry_reads, ih,
      Option.some.injEq, Prod.mk.injEq]
    constructor
    · rintro ⟨e, _, ⟨he, rfl⟩, es, _, ⟨⟨hn, hes⟩, rfl⟩, rfl, rfl⟩
      exact ⟨⟨by simp [hn], by rw [List.all_cons, he, hes]; rfl⟩, by simp⟩
    · rintro ⟨⟨hn, hok⟩, rfl⟩
      cases es with
      | nil => simp at hn
      | cons e es =>
        simp only [List.all_cons, Bool.and_eq_true] at hok
        exact ⟨e, _, ⟨hok.1, by simp⟩, es, rest, ⟨⟨by simpa using hn, hok.2⟩, rfl⟩, rfl, rfl⟩

/-- R182: the channel numbers ascend. -/
theorem ascending_iff {es : List ChannelEntry} : ascending es = true ↔ es.Pairwise fun e f => e.chan < f.chan := by
  rw [← List.isChain_iff_pairwise]
  induction es with
  | nil => simp [ascending]
  | cons e es ih =>
    cases es with
    | nil => simp [ascending]
    | cons f es => simp [ascending, ih]

/-- R182: with ascending numbers there are no more entries than channels. -/
theorem ReportFrame.entries_le {f : ReportFrame} (h : f.consistent = true) : f.entries.length ≤ 4 := by
  simp only [ReportFrame.consistent, Bool.and_eq_true, ascending_iff] at h
  have hnodup : (f.entries.map ChannelEntry.chan).Nodup := by
    rw [List.Nodup, List.pairwise_map]
    exact h.1.imp fun hlt => ne_of_lt hlt
  simpa using hnodup.length_le_card

theorem report_iff {p : List Byte} {f : ReportFrame} :
    ReportFrame.decode p = some f ↔
      (tagEncodable f.tag = true ∧ f.consistent = true ∧ f.entries.all ChannelEntry.encodable = true) ∧ f.encode = p := by
  simp only [ReportFrame.decode, Option.bind_eq_bind, Option.bind_eq_some_iff, Prod.exists, takeTag_reads, takeEntries_reads,
    takeCoded_reads timeState_codes, takeCoded_reads decline_codes, takeCoded_reads (count_codes (show 4 < 256 by decide)),
    Option.ite_none_right_eq_some, Option.some.injEq, true_and]
  constructor
  · rintro ⟨a, _, ⟨ha, rfl⟩, b, _, rfl, c, _, rfl, n, _, ⟨hn, rfl⟩, es, _, ⟨⟨rfl, hes⟩, rfl⟩, ⟨rfl, hf⟩, rfl⟩
    exact ⟨⟨ha, hf, hes⟩, by simp [ReportFrame.encode]⟩
  · rintro ⟨⟨ha, hf, hes⟩, rfl⟩
    refine ⟨f.tag, _, ⟨ha, ?_⟩, f.timeState, _, rfl, f.reason, _, rfl, f.entries.length, _,
      ⟨⟨Nat.zero_le _, ReportFrame.entries_le hf⟩, rfl⟩, f.entries, [], ⟨⟨rfl, hes⟩, (List.append_nil _).symm⟩, ⟨rfl, hf⟩, rfl⟩
    simp [ReportFrame.encode]

/-! ### REPLY (R183) -/

theorem takeChannelStatus_reads : Reads takeChannelStatus ChannelStatus.encode fun _ => True := by
  rintro p ⟨q, la, ca, count, epoch⟩ rest
  simp only [takeChannelStatus, Option.bind_eq_bind, Option.bind_eq_some_iff, Prod.exists, takeByte_reads, take4_reads,
    qualityOf_iff, Option.some.injEq, Prod.mk.injEq, true_and, ChannelStatus.mk.injEq]
  constructor
  · rintro ⟨h, _, rfl, _, hq, x, _, rfl, y, _, rfl, ⟨rfl, rfl, rfl, rfl, rfl⟩, rfl⟩
    have hbyte := (statusByte_eq_iff (c := ⟨_, ⟨h.getLsbD 5, h.getLsbD 4, h.getLsbD 3⟩,
      ⟨h.getLsbD 2, h.getLsbD 1, h.getLsbD 0⟩, x, y⟩)).mpr ⟨hq, rfl, rfl⟩
    rw [ChannelStatus.encode, ← hbyte]
    simp
  · rintro rfl
    obtain ⟨hq, hl, hc⟩ := (statusByte_eq_iff (c := ⟨q, la, ca, count, epoch⟩)).mp rfl
    exact ⟨statusByte ⟨q, la, ca, count, epoch⟩, _, by simp [ChannelStatus.encode], q, hq, count, _, rfl, epoch, rest, rfl, ⟨rfl, hl.symm, hc.symm, rfl, rfl⟩, rfl⟩

theorem takeSnapshot_reads : Reads takeSnapshot Snapshot.encode fun x => x.encodable = true := by
  rintro p ⟨l, c, ts, q, na, ns, nh, ⟨c0, c1, c2, c3⟩, ⟨t0, t1, t2, t3⟩, ⟨rr, rs, rg⟩, nt, no, nq, np⟩ rest
  have hsmall : ∀ {low high}, high < 256 → Reads (takeCoded (countOf low high)) (fun n => [byteOf n])
      fun n => low ≤ n ∧ n ≤ high := fun h => takeCoded_reads (count_codes h)
  constructor
  · intro h
    simp only [takeSnapshot, Reads.bind_iff (takeCoded_reads lifecycle_codes), Reads.bind_iff (takeCoded_reads cause_codes),
      Reads.bind_iff (takeCoded_reads timeState_codes), Reads.bind_iff (takeCoded_reads flag_codes),
      Reads.bind_iff (hsmall (show 30 < 256 by decide))] at h
    obtain ⟨_, _, ⟨-, rfl⟩, _, _, ⟨-, rfl⟩, _, _, ⟨-, rfl⟩, _, _, ⟨-, rfl⟩, _, _, ⟨h1, rfl⟩, _, _, ⟨h2, rfl⟩, _, _, ⟨h3, rfl⟩, h⟩ := h
    simp only [Reads.bind_iff takeChannelStatus_reads, Reads.bind_iff (takeCoded_reads termStatus_codes)] at h
    obtain ⟨_, _, ⟨-, rfl⟩, _, _, ⟨-, rfl⟩, _, _, ⟨-, rfl⟩, _, _, ⟨-, rfl⟩, _, _, ⟨-, rfl⟩, _, _, ⟨-, rfl⟩, _, _, ⟨-, rfl⟩, _, _, ⟨-, rfl⟩, h⟩ := h
    simp only [Reads.bind_iff (takeCoded_reads refusal_codes), Reads.bind_iff (takeCoded_reads sender_codes),
      Reads.bind_iff (takeCoded_reads group_codes), Reads.bind_iff (hsmall (show 16 < 256 by decide)),
      Reads.bind_iff (hsmall (show 4 < 256 by decide)), Reads.bind_iff (hsmall (show 12 < 256 by decide))] at h
    obtain ⟨_, _, ⟨-, rfl⟩, _, _, ⟨-, rfl⟩, _, _, ⟨-, rfl⟩, _, _, ⟨h4, rfl⟩, _, _, ⟨h5, rfl⟩, _, _, ⟨h6, rfl⟩, _, _, ⟨h7, rfl⟩, h⟩ := h
    cases h
    exact ⟨by simp [Snapshot.encodable, h1.2, h2.2, h3.2, h4.2, h5.2, h6.1, h6.2, h7.2], by simp [Snapshot.encode]⟩
  · rintro ⟨hok, rfl⟩
    simp only [Snapshot.encodable, decide_eq_true_eq] at hok
    obtain ⟨h1, h2, h3, h4, h5, h6, h6', h7⟩ := hok
    simp only [Snapshot.encode, List.append_assoc]
    refine Reads.step (takeCoded_reads lifecycle_codes) trivial <| Reads.step (takeCoded_reads cause_codes) trivial <|
      Reads.step (takeCoded_reads timeState_codes) trivial <| Reads.step (takeCoded_reads flag_codes) trivial <|
      Reads.step (hsmall (show 30 < 256 by decide)) ⟨Nat.zero_le _, h1⟩ <|
      Reads.step (hsmall (show 30 < 256 by decide)) ⟨Nat.zero_le _, h2⟩ <|
      Reads.step (hsmall (show 30 < 256 by decide)) ⟨Nat.zero_le _, h3⟩ <|
      Reads.step takeChannelStatus_reads trivial <| Reads.step takeChannelStatus_reads trivial <|
      Reads.step takeChannelStatus_reads trivial <| Reads.step takeChannelStatus_reads trivial <|
      Reads.step (takeCoded_reads termStatus_codes) trivial <| Reads.step (takeCoded_reads termStatus_codes) trivial <|
      Reads.step (takeCoded_reads termStatus_codes) trivial <| Reads.step (takeCoded_reads termStatus_codes) trivial <|
      Reads.step (takeCoded_reads refusal_codes) trivial <| Reads.step (takeCoded_reads sender_codes) trivial <|
      Reads.step (takeCoded_reads group_codes) trivial <|
      Reads.step (hsmall (show 16 < 256 by decide)) ⟨Nat.zero_le _, h4⟩ <|
      Reads.step (hsmall (show 4 < 256 by decide)) ⟨Nat.zero_le _, h5⟩ <|
      Reads.step (hsmall (show 12 < 256 by decide)) ⟨h6, h6'⟩ <|
      Reads.step (hsmall (show 4 < 256 by decide)) ⟨Nat.zero_le _, h7⟩ rfl

theorem reply_iff {p : List Byte} {f : ReplyFrame} :
    ReplyFrame.decode p = some f ↔ (f.requester ≠ 0 ∧ f.snapshot.encodable = true) ∧ f.encode = p := by
  simp only [ReplyFrame.decode, Option.bind_eq_bind, Option.bind_eq_some_iff, Prod.exists, takeByte_reads, takeSnapshot_reads,
    takeCoded_reads ident_codes, takeCoded_reads result_codes, Option.ite_none_right_eq_some, Option.some.injEq, true_and]
  constructor
  · rintro ⟨a, _, ⟨ha, rfl⟩, b, _, rfl, c, _, rfl, d, _, ⟨hd, rfl⟩, rfl, rfl⟩
    exact ⟨⟨ha, hd⟩, by simp [ReplyFrame.encode]⟩
  · rintro ⟨⟨ha, hd⟩, rfl⟩
    exact ⟨f.requester, _, ⟨ha, rfl⟩, f.kind, _, rfl, f.result, _, rfl, f.snapshot, [], ⟨hd, (List.append_nil _).symm⟩, rfl, rfl⟩

end Sys2Proof.Machine

/-!
PROOFS. The whole frame (R135, R178): priority byte, kind, length, payload and CRC.
-/

namespace Sys2Proof.Machine

-- one declaration after the other: fewer threads at a time
set_option Elab.async false

/-- R178: a payload is read under its kind code exactly where it is the writing of an encodable body. -/
theorem Body.decode_iff {kind : BitVec 4} {p : List Byte} {b : Body} :
    Body.decode kind p = some b ↔ b.encodable = true ∧ kind = b.kindCode ∧ b.encode = p := by
  constructor
  · intro h
    have hkind : ∀ c : BitVec 4, kind.toNat = c.toNat → kind = c := fun _ => BitVec.toNat_inj.mp
    unfold Body.decode at h
    split at h
    case h_9 => cases h
    all_goals
      rename_i hk
      obtain ⟨f, hf, rfl⟩ := Option.map_eq_some_iff.mp h
    · exact ⟨rfl, hkind 1 hk, beacon_iff.mp hf⟩
    · exact ⟨rfl, hkind 2 hk, leave_iff.mp hf⟩
    · exact ⟨(call_iff.mp hf).1, hkind 3 hk, (call_iff.mp hf).2⟩
    · refine ⟨?_, hkind 4 hk, (report_iff.mp hf).2⟩
      simpa [Body.encodable, and_assoc] using (report_iff.mp hf).1
    · refine ⟨?_, hkind 5 hk, (close_iff.mp hf).2⟩
      simpa [Body.encodable, and_assoc] using (close_iff.mp hf).1
    · exact ⟨rfl, hkind 6 hk, preset_iff.mp hf⟩
    · exact ⟨by simpa [Body.encodable] using (request_iff.mp hf).1, hkind 7 hk, (request_iff.mp hf).2⟩
    · exact ⟨by simpa [Body.encodable] using (reply_iff.mp hf).1, hkind 8 hk, (reply_iff.mp hf).2⟩
  · rintro ⟨hok, rfl, rfl⟩
    cases b with
    | beacon f => exact congrArg (Option.map Body.beacon) (beacon_iff.mpr rfl)
    | leave r => exact congrArg (Option.map Body.leave) (leave_iff.mpr rfl)
    | call f => exact congrArg (Option.map Body.call) (call_iff.mpr ⟨hok, rfl⟩)
    | report f =>
      refine congrArg (Option.map Body.report) (report_iff.mpr ⟨?_, rfl⟩)
      simpa [Body.encodable, and_assoc] using hok
    | close f =>
      refine congrArg (Option.map Body.close) (close_iff.mpr ⟨?_, rfl⟩)
      simpa [Body.encodable, and_assoc] using hok
    | preset f => exact congrArg (Option.map Body.preset) (preset_iff.mpr rfl)
    | request f =>
      exact congrArg (Option.map Body.request) (request_iff.mpr ⟨by simpa [Body.encodable] using hok, rfl⟩)
    | reply f =>
      exact congrArg (Option.map Body.reply) (reply_iff.mpr ⟨by simpa [Body.encodable] using hok, rfl⟩)

theorem Snapshot.encode_length (x : Snapshot) : x.encode.length = 42 := by
  simp [Snapshot.encode, ChannelStatus.encode, bytes4]

theorem ChannelEntry.encode_length_le (e : ChannelEntry) : e.encode.length ≤ 14 := by
  rw [ChannelEntry.encode_eq]
  rcases e.reading with _ | ⟨q, b, _ | a⟩ <;> simp [Reading.samples, bytes4, bytes2]

/-- R178: every payload fits. -/
theorem Body.encode_length_le {b : Body} (h : b.encodable = true) : b.encode.length ≤ Config.maxPayload := by
  have hentries : ∀ es : List ChannelEntry, (es.flatMap ChannelEntry.encode).length ≤ 14 * es.length := by
    intro es
    induction es with
    | nil => exact Nat.zero_le _
    | cons e es ih =>
      have := e.encode_length_le
      simp only [List.flatMap_cons, List.length_append, List.length_cons]
      omega
  cases b with
  | report f =>
    simp only [Body.encodable, Bool.and_eq_true] at h
    have hlen := ReportFrame.entries_le h.1.2
    have := hentries f.entries
    simp only [Body.encode, ReportFrame.encode, List.length_append, tagBytes_length, List.length_cons, List.length_nil,
      Config.maxPayload]
    omega
  | beacon f => simp [Body.encode, BeaconFrame.encode, bytes6, Config.maxPayload]
  | leave r => simp [Body.encode, Config.maxPayload]
  | call f => simp [Body.encode, CallFrame.encode, bytes6, tagBytes_length, Config.maxPayload]
  | close f => simp [Body.encode, CloseFrame.encode, bytes4, tagBytes_length, Config.maxPayload]
  | preset f => simp [Body.encode, PresetFrame.encode, bytes6, bytes4, Config.maxPayload]
  | request f => simp [Body.encode, RequestFrame.encode, Config.maxPayload]
  | reply f => simp [Body.encode, ReplyFrame.encode, Snapshot.encode_length, Config.maxPayload]

/-- R135: the priority byte by its fields. -/
theorem priorityByte_eq_iff {cls : BitVec 2} {sender : Ident} {b : Byte} :
    b = priorityByte cls sender ↔ b.getLsbD 7 = false ∧ b.extractLsb' 5 2 = cls ∧ b.extractLsb' 0 5 = sender := by
  have hbit : 0#1 = b.extractLsb' (0 + 5 + 2) 1 ↔ b.getLsbD 7 = false := ofBool_eq_part_iff false b
  rw [eq_byte_iff, priorityByte, append_eq_part_iff (n := 3) (m := 5), append_eq_part_iff (n := 1) (m := 2), hbit]
  exact ⟨fun ⟨⟨h, hc⟩, hs⟩ => ⟨h, hc.symm, hs.symm⟩, fun ⟨h, hc, hs⟩ => ⟨⟨h, hc.symm⟩, hs.symm⟩⟩

/-- R178: the kind byte by its fields. -/
theorem kindByte_eq_iff {kind : BitVec 4} {b : Byte} :
    b = kind ++ 0#4 ↔ b.extractLsb' 0 4 = 0 ∧ b.extractLsb' 4 4 = kind := by
  rw [eq_byte_iff, append_eq_part_iff (n := 4) (m := 4)]
  exact ⟨fun ⟨h, h0⟩ => ⟨h0.symm, h.symm⟩, fun ⟨h0, h⟩ => ⟨h.symm, h0.symm⟩⟩

/-- R178: the bytes of a frame, part by part. -/
theorem Frame.encode_eq_iff {cls : BitVec 2} {sender : Ident} {body : Body} {p k n : Byte} {rest : List Byte} :
    Frame.encode ⟨cls, sender, body⟩ = p :: k :: n :: rest ↔ p = priorityByte cls sender ∧ k = body.kindCode ++ 0#4 ∧
      n = byteOf body.encode.length ∧ rest = body.encode ++ bytes2 (crc16 ([k, n] ++ body.encode)) := by
  simp only [Frame.encode, List.cons_append, List.nil_append, List.cons.injEq]
  constructor
  · rintro ⟨rfl, rfl, rfl, rfl⟩
    exact ⟨rfl, rfl, rfl, rfl⟩
  · rintro ⟨rfl, rfl, rfl, rfl⟩
    exact ⟨rfl, rfl, rfl, rfl⟩

/-- R135, R140, R178: a frame is read from its own bytes and from no others. -/
theorem Frame.decode_iff {bytes : List Byte} {f : Frame} :
    Frame.decode bytes = some f ↔ f.encodable = true ∧ f.encode = bytes := by
  obtain ⟨cls, sender, body⟩ := f
  rcases bytes with _ | ⟨p, _ | ⟨k, _ | ⟨n, rest⟩⟩⟩
  · simp [Frame.decode, Frame.encode]
  · simp [Frame.decode, Frame.encode]
  · simp [Frame.decode, Frame.encode]
  · rw [Frame.encode_eq_iff]
    simp only [Frame.decode, Option.ite_none_left_eq_some, not_not, Option.map_eq_some_iff, Body.decode_iff,
      Frame.mk.injEq, Frame.encodable, Bool.and_eq_true, decide_eq_true_eq, not_lt, Bool.not_eq_true, ne_eq]
    constructor
    · rintro ⟨h7, hmax, hlen, hcrc, hk, hs, b, ⟨hok, hkind, henc⟩, hc, hsender, rfl⟩
      have hn : n.toNat = b.encode.length := by
        rw [henc, List.length_take]
        omega
      refine ⟨⟨hsender ▸ hs, hok⟩, priorityByte_eq_iff.mpr ⟨h7, hc, hsender⟩, kindByte_eq_iff.mpr ⟨hk, hkind⟩, ?_, ?_⟩
      · rw [← hn, byteOf, BitVec.ofNat_toNat, BitVec.setWidth_eq]
      · rw [henc, ← hcrc, List.take_append_drop]
    · rintro ⟨⟨hs, hok⟩, hp, hk, hlen, hrest⟩
      obtain ⟨h7, hc, hsender⟩ := priorityByte_eq_iff.mp hp
      obtain ⟨hk0, hkind⟩ := kindByte_eq_iff.mp hk
      have hmax := Body.encode_length_le hok
      have hn : n.toNat = body.encode.length := by
        rw [hlen, byteOf, BitVec.toNat_ofNat]
        exact Nat.mod_eq_of_lt (by unfold Config.maxPayload at hmax; omega)
      have htake : rest.take n.toNat = body.encode := by rw [hrest, hn, List.take_left]
      have hdrop : rest.drop n.toNat = bytes2 (crc16 ([k, n] ++ body.encode)) := by
        rw [hrest, hn, List.drop_left]
      refine ⟨h7, hn ▸ hmax, ?_, by rw [hdrop, htake], hk0, hsender ▸ hs, body, ⟨hok, hkind, htake.symm⟩, hc, hsender, rfl⟩
      rw [hrest, hn]
      simp [bytes2]

end Sys2Proof.Machine

namespace Sys2Proof

-- one declaration after the other: fewer threads at a time
set_option Elab.async false

open Machine

/-- Settles O20: a frame is read from its own bytes. -/
theorem frameEncodingRoundTrips : Obligations.FrameEncodingRoundTrips := fun _ h => Frame.decode_iff.mpr ⟨h, rfl⟩

/-- Settles O21: and from no others. -/
theorem decodedFrameIsItsEncoding : Obligations.DecodedFrameIsItsEncoding := fun _ _ h => (Frame.decode_iff.mp h).symm

end Sys2Proof

/-!
PROOFS. Arrivals: when one is discarded, when it changes nothing, and to whom a well-formed frame of another station is
handed; and the peer table under BEACONs and LEAVEs.
-/

namespace Sys2Proof.Machine

-- one declaration after the other: fewer threads at a time
set_option Elab.async false

/-! ### Where an arrival goes -/

/-- R139: the link unit once the frame of an arrival has ended. -/
def LinkUnit.ended (l : LinkUnit) : LinkUnit := { l with idleCount := some 0, receiver := .waiting }

theorem State.arrival_of_no_end {s : State} {bytes : List Byte} (h : s.frameEnds bytes = none) (mine : Body → Bool)
    (deliver : Time → Frame → State → State) : s.arrival bytes mine deliver = s := by
  simp [State.arrival, h]

theorem State.arrival_of_illFormed {s : State} {bytes : List Byte} {edge : Time} (h : s.frameEnds bytes = some edge)
    (hd : Frame.decode bytes = none) (mine : Body → Bool) (deliver : Time → Frame → State → State) :
    s.arrival bytes mine deliver = s.endReception := by
  simp [State.arrival, h, hd]

theorem State.arrival_of_own {s : State} {bytes : List Byte} {edge : Time} {f : Frame} {mine : Body → Bool}
    (h : s.frameEnds bytes = some edge) (hd : Frame.decode bytes = some f) (hmine : mine f.body = true)
    (hown : f.sender = s.ctrl.identity) (deliver : Time → Frame → State → State) :
    s.arrival bytes mine deliver = s.endReception.conflict := by
  simp [State.arrival, h, hd, hmine, hown]

theorem State.arrival_of_other {s : State} {bytes : List Byte} {edge : Time} {f : Frame} {mine : Body → Bool}
    (h : s.frameEnds bytes = some edge) (hd : Frame.decode bytes = some f) (hmine : mine f.body = true)
    (hother : f.sender ≠ s.ctrl.identity) (deliver : Time → Frame → State → State) :
    s.arrival bytes mine deliver = deliver edge f s.endReception := by
  simp [State.arrival, h, hd, hmine, hother]

/-- Every row with a frame is an arrival of it, taken where the stamp it may carry is the start edge of the frame that
ends. -/
theorem effect_arrival {c : Instr} {bytes : List Byte} (hc : c.frame? = some bytes) (s : State) :
    ∃ (mine : Body → Bool) (deliver : Time → Frame → State → State),
      ((∀ stamp, c.stamp? = some stamp → s.frameEnds bytes = some stamp) →
        effect c s = s.arrival bytes mine deliver) ∧
      (∀ stamp, c.stamp? = some stamp → s.frameEnds bytes ≠ some stamp → effect c s = s) := by
  cases c <;> simp only [Instr.frame?, Option.some.injEq, reduceCtorEq] at hc
  case beaconArrival dt frame edge =>
    subst hc
    exact ⟨Body.isBeacon, deliverBeacon, fun h => by simp [effect, State.stampedArrival, h edge rfl],
      fun stamp hs h => by cases hs; simp [effect, State.stampedArrival, h]⟩
  case replyArrival dt frame =>
    subst hc
    exact ⟨Body.isReply, fun _ _ s => s, fun _ => rfl, fun stamp hs => by cases hs⟩
  all_goals
    subst hc
    exact ⟨_, _, fun _ => rfl, fun stamp hs => by cases hs⟩

/-- R141: the owner of each kind of frame takes it. -/
def Frame.deliver (f : Frame) (edge : Time) (s : State) : State :=
  match f.body with
  | .beacon b => s.beaconArrival f.sender b edge
  | .leave _ => s.leaveArrival f.sender edge
  | .call b => s.callArrival b
  | .report b => s.reportArrival f.sender b
  | .close b => s.closeArrival f.sender b
  | .preset b => s.presetArrival f.sender b
  | .request b => s.requestArrival f.sender b
  | .reply _ => s

/-- A well-formed frame's row hands it to the owner of its kind, or to the station controller where it bears the
station's own identity. -/
theorem effect_command {s : State} {dt : Lapse} {bytes : List Byte} {edge : Time} {f : Frame}
    (hd : Frame.decode bytes = some f) (he : s.frameEnds bytes = some edge) :
    effect (f.command dt bytes edge) s =
      if f.sender = s.ctrl.identity then s.endReception.conflict else f.deliver edge s.endReception := by
  obtain ⟨cls, sender, body⟩ := f
  by_cases hown : sender = s.ctrl.identity
  · rw [if_pos hown]
    cases body
    case beacon b =>
      simp only [Frame.command, effect, State.stampedArrival, he, if_true]
      exact State.arrival_of_own he hd rfl hown _
    case request b =>
      cases hr : b.read <;> simp only [Frame.command, hr, effect] <;>
        exact State.arrival_of_own he hd (by simp [Body.isRequest, hr, Request.isStatus, Request.isArm,
          Request.isDisarm, Request.isFaultAck, Request.isUnknown]) hown _
    case reply => exact State.arrival_of_own (mine := Body.isReply) he hd rfl hown (fun _ _ s => s)
    all_goals exact State.arrival_of_own he hd rfl hown _
  · rw [if_neg hown]
    cases body
    case beacon b =>
      simp only [Frame.command, effect, State.stampedArrival, he, if_true]
      exact State.arrival_of_other he hd rfl hown _
    case request b =>
      cases hr : b.read <;> simp only [Frame.command, hr, effect] <;>
        exact State.arrival_of_other he hd (by simp [Body.isRequest, hr, Request.isStatus, Request.isArm,
          Request.isDisarm, Request.isFaultAck, Request.isUnknown]) hown _
    case reply => exact State.arrival_of_other (mine := Body.isReply) he hd rfl hown (fun _ _ s => s)
    all_goals exact State.arrival_of_other he hd rfl hown _

@[simp] theorem Frame.command_elapsed (f : Frame) (dt : Lapse) (bytes : List Byte) (edge : Time) :
    (f.command dt bytes edge).elapsed = dt := by
  obtain ⟨cls, sender, body⟩ := f
  cases body
  case request b => cases hr : b.read <;> simp [Frame.command, hr, Instr.elapsed]
  all_goals rfl

/-- A frame of another station reaches its owner. -/
theorem exec_command {s : State} {dt : Lapse} {bytes : List Byte} {edge : Time} {f : Frame}
    (hd : Frame.decode bytes = some f) (hs : f.sender ≠ s.ctrl.identity) (he : (s.elapse dt).frameEnds bytes = some edge) :
    exec (f.command dt bytes edge) s = .next (f.deliver edge (s.elapse dt).endReception).settle := by
  rw [exec_eq_effect, Frame.command_elapsed, effect_command hd he, if_neg (by simpa using hs)]

/-! ### The peer table -/

theorem find?_putPeer_self (p : Peer) (l : List Peer) :
    (putPeer p l).find? (fun q => decide (q.ident = p.ident)) = some p := by
  induction l with
  | nil => simp [putPeer]
  | cons q rest ih =>
    unfold putPeer
    split
    · simp
    · split
      · simp
      · rename_i hne
        rw [List.find?_cons_of_neg (by simpa using fun h => hne h.symm), ih]

theorem find?_putPeer_of_ne (p : Peer) {i : Ident} (h : i ≠ p.ident) (l : List Peer) :
    (putPeer p l).find? (fun q => decide (q.ident = i)) = l.find? (fun q => decide (q.ident = i)) := by
  induction l with
  | nil => simp [putPeer, h.symm]
  | cons q rest ih =>
    unfold putPeer
    split
    · simp [h.symm]
    · split
      · rename_i heq
        simp [← heq, h.symm]
      · by_cases hq : q.ident = i
        · rw [List.find?_cons_of_pos (by simpa using hq), List.find?_cons_of_pos (by simpa using hq)]
        · rw [List.find?_cons_of_neg (by simpa using hq), List.find?_cons_of_neg (by simpa using hq), ih]

/-- R81: a sample is accepted within the limit, and whatever it is where no peer is ADMITTED. -/
theorem State.accepts_iff (s : State) (d : Time) :
    s.accepts d = true ↔ d.toInt.natAbs ≤ 200 ∨ ∀ q ∈ s.time.peers, q.state ≠ .admitted := by
  rw [State.accepts, Bool.or_eq_true, decide_eq_true_iff]
  simp [TimeUnit.anyAdmitted, Config.rejectLimit]

end Sys2Proof.Machine

namespace Sys2Proof

-- one declaration after the other: fewer threads at a time
set_option Elab.async false

open Machine

/-- Settles O22: a frame ends as the receiver and local time say, and the arrival of an ill-formed one only ends it. -/
theorem illFormedFrameDiscarded : Obligations.IllFormedFrameDiscarded := by
  unfold Obligations.IllFormedFrameDiscarded
  refine ⟨fun u bytes edge => ?_, fun c bytes s hc => ⟨fun edge he hstamp hd => ?_, fun h => ?_⟩⟩
  · have hsending : u.link.sending = false ↔ ∀ fl, u.link.flight = some fl → fl.onWire = false := by
      cases hf : u.link.flight <;> simp [LinkUnit.sending, hf]
    have hend : frameEnd edge bytes.length = edge + BitVec.ofNat 48 (10 * bytes.length) := rfl
    rw [State.frameEnds_eq_some, State.receiving_eq_some, State.reached_eq, hend, hsending]
    grind
  · obtain ⟨mine, deliver, htaken, -⟩ := effect_arrival hc (s.elapse c.elapsed)
    rw [exec_eq_effect, htaken fun stamp hs => by rw [he, hstamp stamp hs], State.arrival_of_illFormed he hd]
    rfl
  · obtain ⟨mine, deliver, htaken, huntaken⟩ := effect_arrival hc (s.elapse c.elapsed)
    rw [exec_eq_effect]
    rcases h with hnone | ⟨stamp, hs, hne⟩
    · cases hstamp : c.stamp? with
      | none => rw [htaken (by simp [hstamp]), State.arrival_of_no_end hnone]
      | some stamp => rw [huntaken stamp hstamp (by simp [hnone])]
    · rw [huntaken stamp hs hne]

/-- Settles O23: the entry `beaconPeer` makes is put in its sender's place. -/
theorem beaconUpdatesPeer : Obligations.BeaconUpdatesPeer := by
  unfold Obligations.BeaconUpdatesPeer
  intro dt bytes edge cls sender b s hd hs he
  have haccepts := (s.elapse dt).endReception.accepts_iff ((s.elapse dt).endReception.offsetSample b edge)
  refine ⟨putPeer ((s.elapse dt).endReception.beaconPeer sender b edge) s.time.peers,
    (s.elapse dt).endReception.beaconPeer sender b edge, ?_, fun i hi => find?_putPeer_of_ne _ hi _,
    find?_putPeer_self ((s.elapse dt).endReception.beaconPeer sender b edge) _, rfl, ?_, rfl, rfl, rfl, ?_⟩
  · have h := exec_command hd hs he
    simpa only [Frame.command, Frame.deliver, State.beaconArrival, State.endReception, State.withLink,
      State.elapse_peers] using h
  · simp [State.beaconPeer, State.offsetSample, State.endReception]
  · have hoffset : ((s.elapse dt).endReception.beaconPeer sender b edge).offset =
        (s.elapse dt).endReception.offsetSample b edge := rfl
    have hpeers : (s.elapse dt).endReception.time.peers = s.time.peers := by simp [State.endReception]
    have hpeer : (s.elapse dt).endReception.time.peer? sender =
        s.time.peers.find? (fun q => decide (q.ident = sender)) := by rw [← hpeers]; rfl
    rw [hpeers] at haccepts
    simp only [hoffset, ← haccepts]
    simp only [State.beaconPeer, hpeer]
    cases s.time.peers.find? (fun q => decide (q.ident = sender)) with
    | none => simp +contextual [beaconCounts]
    | some old =>
      cases hold : old.state <;> by_cases hacc : (s.elapse dt).endReception.accepts
        ((s.elapse dt).endReception.offsetSample b edge) = true <;> simp [beaconCounts, hold, hacc, Config.admission]

/-- Settles O24: a LEAVE filters its sender out of the table, and a REPLY is handed to nobody. -/
theorem leaveAndReplyArrivals : Obligations.LeaveAndReplyArrivals := by
  unfold Obligations.LeaveAndReplyArrivals
  intro dt bytes cls sender s hs hends
  obtain ⟨edge, he⟩ := Option.isSome_iff_exists.mp hends
  refine ⟨fun reason hd => ?_, fun reply hd => exec_command hd hs he⟩
  refine ⟨s.time.peers.filter fun p => decide (p.ident ≠ sender), ?_, List.filter_sublist, fun i => ?_⟩
  · have h := exec_command hd hs he
    simpa only [Frame.command, Frame.deliver, State.leaveArrival, State.endReception, State.withLink,
      State.elapse_peers] using h
  · rw [List.find?_filter]
    by_cases hi : i = sender
    · simp +contextual [hi]
    · rw [if_neg hi]
      congr 1
      funext p
      by_cases hp : p.ident = i <;> simp [hp, hi]

end Sys2Proof

/-!
PROOFS. What an arrival finds: the state once its frame has ended, which differs in the receiver alone; and the arrivals the
owners ignore.
-/

namespace Sys2Proof.Machine

-- one declaration after the other: fewer threads at a time
set_option Elab.async false

/-! ### The state an owner finds -/

@[simp] theorem State.endReception_link (s : State) : s.endReception.link = s.link.ended := rfl

@[simp] theorem State.endReception_ctrl (s : State) : s.endReception.ctrl = s.ctrl := rfl

@[simp] theorem State.endReception_cap (s : State) : s.endReception.cap = s.cap := rfl

@[simp] theorem State.endReception_hist (s : State) : s.endReception.hist = s.hist := rfl

@[simp] theorem State.endReception_time (s : State) : s.endReception.time = s.time := rfl

@[simp] theorem State.endReception_image (s : State) : s.endReception.image = s.image := rfl

@[simp] theorem State.endReception_trig (s : State) : s.endReception.trig = s.trig := rfl

@[simp] theorem State.endReception_chans (s : State) : s.endReception.chans = s.chans := rfl

@[simp] theorem State.endReception_req (s : State) : s.endReception.req = s.req := rfl

@[simp] theorem State.endReception_pins (s : State) : s.endReception.pins = s.pins := rfl

@[simp] theorem State.endReception_pending (s : State) : s.endReception.pending = s.pending := rfl

@[simp] theorem LinkUnit.ended_queue (l : LinkUnit) : l.ended.queue = l.queue := rfl

@[simp] theorem LinkUnit.ended_flight (l : LinkUnit) : l.ended.flight = l.flight := rfl

@[simp] theorem LinkUnit.ended_nextAge (l : LinkUnit) : l.ended.nextAge = l.nextAge := rfl

@[simp] theorem LinkUnit.ended_count (l : LinkUnit) : l.ended.count = l.count := rfl

@[simp] theorem LinkUnit.ended_callQueued (l : LinkUnit) (o : Owner) : l.ended.callQueued o = l.callQueued o := rfl

@[simp] theorem State.endReception_joined (s : State) : s.endReception.joined = s.joined := rfl

@[simp] theorem State.elapse_tagged? (s : State) (dt : Lapse) (tag : Tag) : (s.elapse dt).tagged? tag = s.tagged? tag := by
  simp [State.tagged?]

@[simp] theorem State.endReception_tagged? (s : State) (tag : Tag) : s.endReception.tagged? tag = s.tagged? tag := rfl

@[simp] theorem State.elapse_callQueued (s : State) (dt : Lapse) (o : Owner) :
    (s.elapse dt).link.callQueued o = s.link.callQueued o := by
  simp [LinkUnit.callQueued]

@[simp] theorem State.elapse_uidsSound (s : State) (dt : Lapse) : (s.elapse dt).uidsSound = s.uidsSound := by
  simp [State.uidsSound]

@[simp] theorem State.endReception_uidsSound (s : State) : s.endReception.uidsSound = s.uidsSound := rfl

/-- A frame ends only where the part is out of reset. -/
theorem State.released_of_frameEnds {s : State} {dt : Lapse} {bytes : List Byte} {edge : Time}
    (h : (s.elapse dt).frameEnds bytes = some edge) : s.ctrl.hold = none := by
  obtain ⟨hreceiving, -⟩ := State.frameEnds_eq_some.mp h
  obtain ⟨-, hrunning, -⟩ := State.receiving_eq_some.mp hreceiving
  rw [State.elapse_running] at hrunning
  simp only [State.running, State.released, Bool.and_eq_true, Option.isNone_iff_eq_none] at hrunning
  exact hrunning.1

/-- In JOINED the owners find the station joined. -/
theorem State.received_joined {s : State} {dt : Lapse} {bytes : List Byte} {edge : Time}
    (h : (s.elapse dt).frameEnds bytes = some edge) (hl : s.ctrl.lifecycle = .joined) :
    (s.elapse dt).endReception.joined = true := by
  simpa using State.joined_of (State.released_of_frameEnds h) hl

theorem State.joined_eq_false {s : State} (h : s.ctrl.lifecycle ≠ .joined) : s.joined = false := by
  simp [State.joined, h]

/-! ### Entries by uid -/

/-- R6: an entry of the table is the only one of its uid. -/
theorem State.uid_eq_iff {s : State} (hs : s.uidsSound = true) {e x : Entry} (he : e ∈ s.cap.table)
    (hx : x ∈ s.cap.table) : x.uid = e.uid ↔ x = e :=
  ⟨fun h => List.inj_on_of_nodup_map (s.uidsSound_iff.mp hs).1 hx he h, fun h => h ▸ rfl⟩

theorem State.filter_uid {s : State} (hs : s.uidsSound = true) {e : Entry} (he : e ∈ s.cap.table) :
    (s.cap.table.filter fun x => x.uid != e.uid) = s.cap.table.filter fun x => x != e :=
  List.filter_congr fun x hx => by
    have := State.uid_eq_iff hs he hx
    grind

theorem State.map_uid {s : State} (hs : s.uidsSound = true) {e : Entry} (he : e ∈ s.cap.table) (f : Entry → Entry) :
    (s.cap.table.map fun x => if x.uid = e.uid then f x else x) = s.cap.table.map fun x => if x = e then f x else x :=
  List.map_congr_left fun x hx => by simp only [State.uid_eq_iff hs he hx]

/-- R40: an answer of an entry that takes none is not counted. -/
theorem State.countAnswer_of_not_open {s : State} {uid : Nat} {e : Entry} (he : s.entry? uid = some e) (i : Ident)
    (declined : Bool) (h : ∀ o, e.origin = some o → (o.open_ && !o.counted i) = false) :
    s.countAnswer uid i declined = s := by
  unfold State.countAnswer
  rw [he]
  obtain ⟨_, _, _, _, _, _, _, _, origin⟩ := e
  cases origin with
  | none => rfl
  | some o => simp [h o rfl]

/-- R40: an origin part takes an answer unless it is in CALLING, its CLOSE has begun, or the sender is counted. -/
theorem Origin.not_open_iff (o : Origin) (i : Ident) : (o.open_ && !o.counted i) = false ↔
    o.state = .calling ∨ o.begun = true ∨ hasIdent o.responders i = true ∨ hasIdent o.decliners i = true := by
  unfold Origin.open_ Origin.counted
  rw [hasIdent_or]
  cases o.state <;> cases o.begun <;> cases hasIdent o.responders i <;> cases hasIdent o.decliners i <;> simp

/-! ### CALLs that are ignored -/

/-- R1: the tag and the kind of a CALL disagree. -/
theorem CallFrame.agrees_eq_false {f : CallFrame}
    (h : match f.tag with
      | .station _ _ => f.kind = .cadence
      | .cadence g _ => f.kind ≠ .cadence ∨ g ≠ f.group) : f.agrees = false := by
  unfold CallFrame.agrees
  cases htag : f.tag <;> cases hkind : f.kind <;> simp_all

theorem State.callArrival_of_unfit {s : State} {f : CallFrame} (h : (s.joined && f.agrees && s.declares f.group) = false) :
    s.callArrival f = s := by
  simp [State.callArrival, h]

theorem State.callArrival_of_held {s : State} {f : CallFrame} {e : Entry} (he : s.tagged? f.tag = some e)
    (h : s.callWaits e = false) : s.callArrival f = s := by
  simp [State.callArrival, he, h]

theorem State.callArrival_of_declined {s : State} {f : CallFrame} (he : s.tagged? f.tag = none)
    (h : f.tag ∈ s.cap.declined) : s.callArrival f = s := by
  simp [State.callArrival, he, h]

theorem State.callWaits_iff (s : State) (e : Entry) : s.callWaits e = true ↔
    ∃ o, e.origin = some o ∧ o.state = .calling ∧ s.link.callQueued (.entry e.uid) = true := by
  unfold State.callWaits
  cases e.origin <;> simp

/-! ### REPORTs, CLOSEs, PRESETs and REQUESTs that are ignored -/

theorem State.reportArrival_of_unjoined {s : State} (h : s.joined = false) (i : Ident) (f : ReportFrame) :
    s.reportArrival i f = s := by
  simp [State.reportArrival, h]

theorem State.reportArrival_of_untagged {s : State} {f : ReportFrame} (h : s.tagged? f.tag = none) (i : Ident) :
    s.reportArrival i f = s := by
  simp [State.reportArrival, h]

theorem State.closeArrival_of_unjoined {s : State} (h : s.joined = false) (i : Ident) (f : CloseFrame) :
    s.closeArrival i f = s := by
  simp [State.closeArrival, h]

theorem State.closeArrival_of_untagged {s : State} {f : CloseFrame} (h : s.tagged? f.tag = none)
    (hd : f.tag ∉ s.cap.declined) (i : Ident) : s.closeArrival i f = s := by
  simp [State.closeArrival, h, hd]

theorem State.closeArrival_of_calling {s : State} {f : CloseFrame} {e : Entry} {o : Origin} (he : s.tagged? f.tag = some e)
    (ho : e.origin = some o) (hc : o.state = .calling) (hq : s.link.callQueued (.entry e.uid) = false) (i : Ident) :
    s.closeArrival i f = s := by
  simp [State.closeArrival, he, ho, hc, hq]

theorem State.closeArrival_of_higher {s : State} {f : CloseFrame} {e : Entry} {o : Origin} (he : s.tagged? f.tag = some e)
    (ho : e.origin = some o) (hc : o.state ≠ .calling) {i : Ident} (hi : s.ctrl.identity < i) : s.closeArrival i f = s := by
  have hlower : ¬ i < s.ctrl.identity := BitVec.lt_asymm hi
  cases hstate : o.state <;> simp_all [State.closeArrival]

theorem State.presetArrival_of_unfit {s : State} {f : PresetFrame} (h : (s.joined && s.declares f.group) = false)
    (i : Ident) : s.presetArrival i f = s := by
  simp [State.presetArrival, h]

theorem State.presetArrival_of_duplicate {s : State} {f : PresetFrame} (h : s.presetDuplicate f = true) (i : Ident) :
    s.presetArrival i f = s := by
  simp [State.presetArrival, h]

theorem State.presetDuplicate_iff (s : State) (f : PresetFrame) :
    s.presetDuplicate f = true ↔ ∃ q ∈ s.hist.presets, q.group = f.group ∧ q.time = f.time := by
  simp [State.presetDuplicate]

theorem State.requestArrival_of_untaken {s : State} {f : RequestFrame} (h : s.takesRequest f = false) (i : Ident) :
    s.requestArrival i f = s := by
  simp [State.requestArrival, h]

end Sys2Proof.Machine

namespace Sys2Proof

-- one declaration after the other: fewer threads at a time
set_option Elab.async false

open Machine

/-- Settles O25: in each of the cases the owner of the kind leaves the state as the receiver left it. -/
theorem ignoredArrivals : Obligations.IgnoredArrivals := by
  unfold Obligations.IgnoredArrivals
  intro dt bytes edge f s hd hs he huids hignored
  have hkept : f.deliver edge (s.elapse dt).endReception = (s.elapse dt).endReception := by
    have hunjoined : s.ctrl.lifecycle ≠ .joined → (s.elapse dt).endReception.joined = false := fun h =>
      State.joined_eq_false (by simpa using h)
    have hdeclares : ∀ g : Group, (s.elapse dt).endReception.declares g = s.image.declared.getLsbD g.val := by
      simp [State.declares]
    obtain ⟨cls, sender, body⟩ := f
    cases body with
    | beacon b | leave b | reply b => exact hignored.elim
    | call b =>
      rcases hignored with hl | hg | hag | ⟨e, ht, hwaits⟩ | ⟨ht, hdecl⟩
      · exact State.callArrival_of_unfit (by simp [hunjoined hl])
      · exact State.callArrival_of_unfit (by simp only [hdeclares, hg, Bool.and_false])
      · exact State.callArrival_of_unfit (by simp [CallFrame.agrees_eq_false hag])
      · refine State.callArrival_of_held (by simpa using ht) (Bool.eq_false_iff.mpr fun h => ?_)
        obtain ⟨o, ho, hcalling, hq⟩ := (State.callWaits_iff _ e).mp h
        rcases hwaits o ho with h | h
        · exact h hcalling
        · simp [h] at hq
      · exact State.callArrival_of_declined (by simpa using ht) (by simpa using hdecl)
    | report b =>
      rcases hignored with hl | ht | ⟨e, ht, hclosed⟩
      · exact State.reportArrival_of_unjoined (hunjoined hl) _ _
      · exact State.reportArrival_of_untagged (by simpa using ht) _
      · have hentry : (s.elapse dt).endReception.entry? e.uid = some e :=
          State.entry?_of_mem (by simpa using huids) (by simpa using (State.tagged?_eq_some ht).1)
        simp only [Frame.deliver, State.reportArrival, State.endReception_tagged?, State.elapse_tagged?, ht]
        rw [State.countAnswer_of_not_open hentry _ _ fun o ho => (o.not_open_iff _).mpr (hclosed o ho), ite_self]
    | close b =>
      rcases hignored with hl | ⟨ht, hdecl⟩ | ⟨e, o, ht, ho, hstate⟩
      · exact State.closeArrival_of_unjoined (hunjoined hl) _ _
      · exact State.closeArrival_of_untagged (by simpa using ht) (by simpa using hdecl) _
      · rcases hstate with ⟨hcalling, hq⟩ | ⟨hcalling, hi⟩
        · exact State.closeArrival_of_calling (by simpa using ht) ho hcalling (by simpa using hq) _
        · exact State.closeArrival_of_higher (by simpa using ht) ho hcalling (by simpa using hi)
    | preset b =>
      rcases hignored with hl | hg | hq
      · exact State.presetArrival_of_unfit (by simp [hunjoined hl]) _
      · exact State.presetArrival_of_unfit (by simp only [hdeclares, hg, Bool.and_false]) _
      · exact State.presetArrival_of_duplicate ((State.presetDuplicate_iff _ _).mpr (by simpa using hq)) _
    | request b =>
      refine State.requestArrival_of_untaken ?_ _
      rcases hignored with hl | ht
      · simp [State.takesRequest, hunjoined hl]
      · simp [State.takesRequest, ht]
  rw [exec_command hd hs he, hkept]
  rfl

end Sys2Proof

/-!
PROOFS. Arrivals of CALLs, REPORTs and CLOSEs that the capture unit acts on: what each makes of the table and of the queue.
-/

namespace Sys2Proof.Machine

-- one declaration after the other: fewer threads at a time
set_option Elab.async false

/-! ### Frames of an owner -/

theorem bne_eq_decide_ne {α : Type} [DecidableEq α] (a b : α) : (a != b) = decide (a ≠ b) := by
  by_cases h : a = b <;> simp [h]

/-! ### Room in the table -/

/-- R6: an entry filtered out by its uid is the one that leaves. -/
theorem State.filter_uid_split {s : State} (hs : s.uidsSound = true) {older newer : List Entry} {e : Entry}
    (h : s.cap.table = older ++ e :: newer) :
    (s.cap.table.filter fun x => x.uid != e.uid) = older ++ newer := by
  obtain ⟨hnodup, -⟩ := s.uidsSound_iff.mp hs
  rw [h, List.map_append, List.map_cons, List.nodup_middle, List.nodup_cons] at hnodup
  have hother : ∀ x ∈ older ++ newer, (x.uid != e.uid) = true := fun x hx => by
    rw [bne_iff_ne]
    exact fun hu => hnodup.1 (by rw [← hu, ← List.map_append]; exact List.mem_map_of_mem hx)
  rw [h, List.filter_append, List.filter_cons_of_neg (by simp), ← List.filter_append, List.filter_eq_self]
  exact hother

/-- R5: the oldest freeable entry of a full table is freed. -/
theorem State.makeRoom_full {s : State} (hs : s.uidsSound = true) (hlen : s.cap.table.length = 16)
    (hfree : (s.cap.table.find? Entry.freeable).isSome = true) :
    ∃ older freed newer, s.cap.table = older ++ freed :: newer ∧ freed.freeable = true ∧
      (∀ x ∈ older, x.freeable = false) ∧
      s.makeRoom = some { s with
        cap := { s.cap with table := older ++ newer }
        link := s.link.withdraw (.entry freed.uid) } := by
  obtain ⟨freed, hfind⟩ := Option.isSome_iff_exists.mp hfree
  obtain ⟨hfreed, older, newer, hsplit, holder⟩ := List.find?_eq_some_iff_append.mp hfind
  refine ⟨older, freed, newer, hsplit, hfreed, fun x hx => by simpa using holder x hx, ?_⟩
  rw [State.makeRoom, if_neg (by simp [hlen, Config.tableSize]), hfind, Option.map_some, State.freeEntry,
    State.filter_uid_split hs hsplit]

/-- R5: the table and the queue once there is room: the oldest freeable entry of a full table is gone, with its frames. -/
def State.RoomMade (s : State) (kept : List Entry) (queue : List QFrame) : Prop :=
  if s.cap.table.length = 16 then
    ∃ older freed newer, s.cap.table = older ++ freed :: newer ∧ freed.freeable = true ∧
      (∀ x ∈ older, x.freeable = false) ∧ kept = older ++ newer ∧
      queue = s.link.queue.filter fun f => f.owner != .entry freed.uid
  else kept = s.cap.table ∧ queue = s.link.queue

/-- The state with other entries and other frames not in flight. -/
def State.withKept (s : State) (kept : List Entry) (queue : List QFrame) : State :=
  { s with cap := { s.cap with table := kept }, link := { s.link with queue := queue } }

theorem State.makeRoom_short {s : State} (hlen : s.cap.table.length < 16) : s.makeRoom = some s := by
  simp [State.makeRoom, Config.tableSize, hlen]

theorem State.makeRoom_none {s : State} (hlen : 16 ≤ s.cap.table.length) (h : ∀ e ∈ s.cap.table, e.freeable = false) :
    s.makeRoom = none := by
  have hfind : s.cap.table.find? Entry.freeable = none := by simpa using h
  simp [State.makeRoom, Config.tableSize, hlen, hfind]

/-- R5: where the table has room, or something freeable, room is made, by what `RoomMade` says. -/
theorem State.makeRoom_made {s : State} (hs : s.uidsSound = true) (hlen : s.cap.table.length ≤ 16)
    (hfree : s.cap.table.length = 16 → (s.cap.table.find? Entry.freeable).isSome = true) :
    ∃ kept queue, s.RoomMade kept queue ∧ kept.Sublist s.cap.table ∧ queue.Sublist s.link.queue ∧
      s.makeRoom = some (s.withKept kept queue) := by
  unfold State.RoomMade
  by_cases hfull : s.cap.table.length = 16
  · obtain ⟨older, freed, newer, hsplit, hfreed, holder, hroom⟩ := State.makeRoom_full hs hfull (hfree hfull)
    refine ⟨older ++ newer, s.link.queue.filter fun f => f.owner != .entry freed.uid, ?_, ?_, List.filter_sublist, ?_⟩
    · rw [if_pos hfull]
      exact ⟨older, freed, newer, hsplit, hfreed, holder, rfl, rfl⟩
    · rw [hsplit]
      exact (List.sublist_cons_self freed newer).append_left older
    · rw [hroom]
      simp only [State.withKept, LinkUnit.withdraw, bne_eq_decide_ne]
  · exact ⟨s.cap.table, s.link.queue, by simp [hfull], .refl _, .refl _, State.makeRoom_short (by omega)⟩

/-! ### Resolution at once -/

/-- R14: the newest sample is later than a local instant. -/
def History.newerThan (h : History) (instant : Time) : Bool :=
  match h.newest with
  | some newest => later newest instant
  | none => false

theorem State.resolveAtOnce_eq (s : State) (e : Entry) :
    s.resolveAtOnce e = if s.hist.newerThan (s.toLocal e.time) = true then s.resolveEntry e.uid else s := by
  unfold State.resolveAtOnce History.newerThan
  cases s.hist.newest <;> simp

/-- R15: a WAITING entry whose REPORT finds room. -/
theorem State.resolveEntry_of_room {s : State} {e : Entry} (he : s.entry? e.uid = some e) (hw : e.member = .waiting)
    (hroom : s.link.count < 12) :
    s.resolveEntry e.uid = { s with
      cap := { s.cap with table := s.cap.table.map fun x => if x.uid = e.uid then { x with member := .resolved } else x }
      link := s.link.enqueue (.entry e.uid) (.report (s.reportOf e)) } := by
  rw [State.resolveEntry, he]
  simp only [hw, if_true]
  rw [State.offer_of_room rfl (by simpa [Config.queueSize] using hroom)]
  rfl

theorem State.uidsSound_addEntry {s : State} (hs : s.uidsSound = true) {e : Entry} (he : e.uid = s.cap.nextUid) :
    (s.addEntry e).uidsSound = true := by
  rw [State.uidsSound_iff] at *
  obtain ⟨hnodup, hlt⟩ := hs
  simp only [State.addEntry, List.map_append, List.map_cons, List.map_nil, List.nodup_append, List.mem_append,
    List.mem_singleton, List.mem_map, forall_exists_index, and_imp, forall_apply_eq_imp_iff₂]
  refine ⟨⟨hnodup, by simp, fun x hx y hy => ?_⟩, fun x hx => ?_⟩
  · have := hlt x hx; grind
  · rcases hx with hx | rfl
    · have := hlt x hx; omega
    · omega

/-- An entry changed by its uid right after it has joined is the last of the table. -/
theorem State.map_uid_added {s : State} (hs : s.uidsSound = true) {e : Entry} (he : e.uid = s.cap.nextUid)
    (f : Entry → Entry) :
    ((s.cap.table ++ [e]).map fun x => if x.uid = e.uid then f x else x) = s.cap.table ++ [f e] := by
  rw [List.map_append]
  congr 1
  · refine (List.map_congr_left fun x hx => ?_).trans (List.map_id _)
    have := (s.uidsSound_iff.mp hs).2 x hx
    rw [if_neg (by omega), id]
  · simp

/-- R14: an entry that has just joined waits, or is resolved at once where the newest sample is later, its REPORT queued. -/
theorem State.resolveAtOnce_added {s : State} (hs : s.uidsSound = true) {e : Entry} (he : e.uid = s.cap.nextUid)
    (hw : e.member = .waiting) (hroom : s.link.count < 12) :
    (s.addEntry e).resolveAtOnce e =
      if s.hist.newerThan (s.toLocal e.time) = true then
        { s with
          cap := { s.cap with table := s.cap.table ++ [{ e with member := .resolved }], nextUid := s.cap.nextUid + 1 }
          link := s.link.enqueue (.entry e.uid) (.report (s.reportOf e)) }
      else s.addEntry e := by
  have hentry : (s.addEntry e).entry? e.uid = some e :=
    State.entry?_of_mem (State.uidsSound_addEntry hs he) (by simp)
  rw [State.resolveAtOnce_eq, State.resolveEntry_of_room hentry hw hroom, State.addEntry_table,
    State.map_uid_added hs he]
  rfl

/-! ### CALLs that are taken -/

section
variable {s : State} {f : CallFrame}

theorem State.callArrival_own (hfit : (s.joined && f.agrees && s.declares f.group) = true) {e : Entry}
    (ht : s.tagged? f.tag = some e) (hw : s.callWaits e = true) : s.callArrival f = s.giveUpCall e := by
  simp [State.callArrival, hfit, ht, hw]

theorem State.callArrival_far (hfit : (s.joined && f.agrees && s.declares f.group) = true)
    (ht : s.tagged? f.tag = none) (hdecl : f.tag ∉ s.cap.declined) (hfar : 1000000 < timeDiff f.time s.netTime) :
    s.callArrival f = s.decline f.tag .far := by
  simp [State.callArrival, hfit, ht, hdecl, Config.horizon, hfar]

theorem State.callArrival_full (hfit : (s.joined && f.agrees && s.declares f.group) = true)
    (ht : s.tagged? f.tag = none) (hdecl : f.tag ∉ s.cap.declined) (hnear : timeDiff f.time s.netTime ≤ 1000000)
    (hroom : s.makeRoom = none) : s.callArrival f = s.decline f.tag .tableFull := by
  have hfar : ¬ 1000000 < timeDiff f.time s.netTime := by omega
  simp [State.callArrival, hfit, ht, hdecl, Config.horizon, hfar, hroom]

theorem State.callArrival_room (hfit : (s.joined && f.agrees && s.declares f.group) = true)
    (ht : s.tagged? f.tag = none) (hdecl : f.tag ∉ s.cap.declined) (hnear : timeDiff f.time s.netTime ≤ 1000000)
    {t : State} (hroom : s.makeRoom = some t) :
    s.callArrival f = (t.addEntry (t.newEntry f.tag f.group f.time f.kind none)).resolveAtOnce
      (t.newEntry f.tag f.group f.time f.kind none) := by
  have hfar : ¬ 1000000 < timeDiff f.time s.netTime := by omega
  simp [State.callArrival, hfit, ht, hdecl, Config.horizon, hfar, hroom]

/-- R13: a declined REPORT finds room. -/
theorem State.decline_of_room {tag : Tag} {reason : DeclineReason} (hroom : s.link.count < 12) :
    s.decline tag reason = { s with
      cap := { s.cap with declined := s.cap.declined ++ [tag] }
      link := s.link.enqueue (.declined tag) (.report ⟨tag, s.time.state, reason, []⟩) } := by
  rw [State.decline, State.offer_of_room rfl (by simpa [Config.queueSize] using hroom)]
  rfl

end

/-- What the capture unit checks of a CALL first holds of the state an owner finds. -/
theorem State.received_fit {s : State} {dt : Lapse} {bytes : List Byte} {edge : Time} {f : CallFrame}
    (h : (s.elapse dt).frameEnds bytes = some edge) (hl : s.ctrl.lifecycle = .joined) (hag : f.agrees = true)
    (hg : s.image.declared.getLsbD f.group.val = true) :
    ((s.elapse dt).endReception.joined && f.agrees && (s.elapse dt).endReception.declares f.group) = true := by
  rw [State.received_joined h hl, hag, State.declares, State.endReception_image, State.elapse_image, hg]
  rfl

end Sys2Proof.Machine

namespace Sys2Proof

-- one declaration after the other: fewer threads at a time
set_option Elab.async false

open Machine

/-- Settles O27: FAR is tested before the room, and either way the declined REPORT is queued. -/
theorem callDeclined : Obligations.CallDeclined := by
  unfold Obligations.CallDeclined
  intro dt bytes cls sender b s far hd hs hends hl hag hg ht hdecl hroom hreason
  obtain ⟨edge, he⟩ := Option.isSome_iff_exists.mp hends
  have hfit := State.received_fit he hl hag hg
  have hcount : (s.elapse dt).endReception.link.count < 12 := by simpa using hroom
  have hdeclined : (s.elapse dt).endReception.callArrival b =
      (s.elapse dt).endReception.decline b.tag (if far then .far else .tableFull) := by
    cases far with
    | true =>
      exact State.callArrival_far hfit (by simpa using ht) (by simpa using hdecl)
        (by rw [if_pos rfl] at hreason; exact hreason)
    | false =>
      obtain ⟨hnear, hfull, hkept⟩ := by simpa only [Bool.false_eq_true, if_false] using hreason
      exact State.callArrival_full hfit (by simpa using ht) (by simpa using hdecl) hnear
        (State.makeRoom_none (by simpa using hfull) (by simpa using hkept))
  have h := exec_command (edge := edge) hd hs he
  simp only [Frame.command, Frame.deliver] at h
  rw [h, hdeclined, State.decline_of_room hcount]
  simp only [State.endReception, State.withLink, LinkUnit.enqueue, State.elapse_cap, State.elapse_queue,
    State.elapse_nextAge, State.elapse_state]

/-- Settles O26: room is made, the entry joins, and it is resolved at once where the newest sample is later. -/
theorem callMakesEntry : Obligations.CallMakesEntry := by
  unfold Obligations.CallMakesEntry
  intro dt bytes cls sender b s hd hs hends hl hag hg ht hdecl hnear hlen huids hfree hroom instant answered
  obtain ⟨edge, he⟩ := Option.isSome_iff_exists.mp hends
  obtain ⟨kept, queue, hmade, hkept, hqueue, hmakeRoom⟩ := State.makeRoom_made (s := (s.elapse dt).endReception)
    (by simpa using huids) (by simpa using hlen) (by simpa using hfree)
  have huidsKept : ((s.elapse dt).endReception.withKept kept queue).uidsSound = true :=
    State.uidsSound_of_sublist hkept rfl (by simpa using huids)
  have hcount : ((s.elapse dt).endReception.withKept kept queue).link.count < 12 := by
    have := hqueue.length_le
    simp only [LinkUnit.count, State.withKept, State.endReception_link, LinkUnit.ended_queue, LinkUnit.ended_flight,
      State.elapse_queue, State.elapse_flight] at this hroom ⊢
    omega
  have hanswered : answered = ((s.elapse dt).endReception.withKept kept queue).hist.newerThan
      (((s.elapse dt).endReception.withKept kept queue).toLocal
        (((s.elapse dt).endReception.withKept kept queue).newEntry b.tag b.group b.time b.kind none).time) := by
    simp only [answered, instant, State.newEntry, State.withKept, State.toLocal, State.endReception_hist, State.endReception_time,
      State.elapse_hist, State.elapse_correction]
    rfl
  have h := exec_command (edge := edge) hd hs he
  simp only [Frame.command, Frame.deliver] at h
  rw [h, State.callArrival_room (State.received_fit he hl hag hg) (by simpa using ht) (by simpa using hdecl) hnear
    hmakeRoom, State.resolveAtOnce_added huidsKept rfl rfl hcount, ← hanswered]
  refine ⟨kept, queue, { ((s.elapse dt).endReception.withKept kept queue).newEntry b.tag b.group b.time b.kind none with
    member := if answered then .resolved else .waiting }, ?_, ?_, ?_⟩
  · simpa [State.RoomMade] using hmade
  · clear_value answered
    cases answered <;>
      simp only [State.addEntry, State.newEntry, State.withKept, State.endReception, State.withLink, LinkUnit.enqueue,
        State.reportOf, State.readings, State.channelMap, State.toLocal, State.elapse_cap, State.elapse_queue,
        State.elapse_nextAge, State.elapse_state, State.elapse_hist, State.elapse_image, State.elapse_correction, if_true,
        Bool.false_eq_true, if_false, instant]
  · refine ⟨by simp [State.newEntry, State.withKept], rfl, rfl, rfl, rfl, rfl, rfl, ?_, rfl⟩
    simp only [State.newEntry, State.strobeFlagFor, instant]
    cases b.kind <;> simp [State.toLocal, State.withKept]

end Sys2Proof

/-!
PROOFS. A CALL that another station's overtakes, a REPORT that is counted, and a CLOSE that frees its entry.
-/

namespace Sys2Proof.Machine

-- one declaration after the other: fewer threads at a time
set_option Elab.async false

/-! ### An own CALL that gives way -/

theorem State.reachedNet_iff (s : State) (t : Time) :
    s.reachedNet t = true ↔ later (t - s.time.correction) s.time.localTime = false := by
  simp [State.reachedNet, State.reached, State.toLocal]

/-- R9: the table and the queue once an own CALL has given way. -/
theorem State.giveUpCall_eq {s : State} (hs : s.uidsSound = true) {e : Entry} (he : e ∈ s.cap.table) :
    s.giveUpCall e = { s with
      cap := { s.cap with
        table :=
          if s.reachedNet e.retentionEnd = true then s.cap.table.filter fun x => x != e
          else s.cap.table.map fun x => if x = e then { x with origin := none } else x }
      link := { s.link with
        queue := s.link.queue.filter fun f => decide (f.owner = .entry e.uid →
          s.reachedNet e.retentionEnd = false ∧ f.content.isCall = false) } } := by
  have hmap := State.map_uid hs he fun x => { x with origin := none }
  have hfilter : ((s.cap.table.map fun x => if x.uid = e.uid then { x with origin := none } else x).filter
      fun x => x.uid != e.uid) = s.cap.table.filter fun x => x != e := by
    rw [List.filter_map, ← State.filter_uid hs he]
    have hcomp : ((fun x : Entry => x.uid != e.uid) ∘ fun x => if x.uid = e.uid then { x with origin := none } else x) =
        fun x => x.uid != e.uid := by
      funext x; by_cases hx : x.uid = e.uid <;> simp [hx]
    rw [hcomp]
    refine (List.map_congr_left fun x hx => ?_).trans (List.map_id _)
    rw [if_neg (by simpa using (List.mem_filter.mp hx).2), id]
  have hsame : ((s.withLink (s.link.withdrawCall (.entry e.uid))).onEntry e.uid fun e => { e with origin := none }).reachedNet
      e.retentionEnd = s.reachedNet e.retentionEnd := rfl
  unfold State.giveUpCall
  simp only [hsame]
  cases hr : s.reachedNet e.retentionEnd
  · simp only [Bool.false_eq_true, if_false, State.onEntry, State.withLink, hmap, LinkUnit.withdrawCall]
    congr 3
    funext f
    by_cases ho : f.owner = .entry e.uid <;> simp [ho]
  · simp only [if_true, State.freeEntry, State.onEntry, State.withLink, hfilter, LinkUnit.withdrawCall,
      LinkUnit.withdraw, List.filter_filter]
    congr 3
    funext f
    by_cases ho : f.owner = .entry e.uid <;> simp [ho]

/-! ### Answers -/

theorem State.entry?_onEntry {s : State} {uid : Nat} {e : Entry} (he : s.entry? uid = some e) {f : Entry → Entry}
    (hf : ∀ x, (f x).uid = x.uid) : (s.onEntry uid f).entry? uid = some (f e) := by
  unfold State.entry? at he ⊢
  rw [State.onEntry_table, List.find?_map]
  have hcomp : ((fun x : Entry => x.uid == uid) ∘ fun x => if x.uid = uid then f x else x) = fun x => x.uid == uid := by
    funext x; by_cases hx : x.uid = uid <;> simp [hx, hf]
  rw [hcomp, he, Option.map_some, if_pos (by simpa using List.find?_some he)]

/-- R40: an origin part with one answer more. -/
def Origin.answered (o : Origin) (i : Ident) (declined : Bool) : Origin :=
  if declined then { o with decliners := o.decliners ||| identBit i }
  else { o with responders := o.responders ||| identBit i }

/-- R42: an origin part whose collection has ended. -/
def Origin.closing (o : Origin) : Origin := { o with state := .closing }

theorem State.countAnswer_of_open {s : State} {uid : Nat} {e : Entry} {o : Origin} (he : s.entry? uid = some e)
    (ho : e.origin = some o) {i : Ident} (hopen : (o.open_ && !o.counted i) = true) (declined : Bool) :
    s.countAnswer uid i declined =
      (s.onEntry uid fun e => e.onOrigin fun o => o.answered i declined).testCover uid := by
  obtain ⟨_, _, _, _, _, _, _, _, origin⟩ := e
  cases ho
  simp only [State.countAnswer, he, hopen, if_true]
  rfl

theorem State.testCover_eq {s : State} {uid : Nat} {e : Entry} {o : Origin} (he : s.entry? uid = some e)
    (ho : e.origin = some o) :
    s.testCover uid = if o.state = .collecting ∧ o.covered = true then s.beginClosing uid else s := by
  obtain ⟨_, _, _, _, _, _, _, _, origin⟩ := e
  cases ho
  simp only [State.testCover, he]

/-- R42, R43: a CLOSE that finds room. -/
theorem State.beginClosing_of_room {s : State} {uid : Nat} (hroom : s.link.count < 12) :
    s.beginClosing uid = (s.onEntry uid fun e => e.onOrigin Origin.closing).withLink
      (s.link.enqueue (.entry uid) (.close none)) := by
  rw [State.beginClosing, State.offer_of_room rfl (by simpa [Config.queueSize] using hroom)]
  rfl

theorem Origin.answered_state (o : Origin) (i : Ident) (declined : Bool) : (o.answered i declined).state = o.state := by
  cases declined <;> rfl

/-- R42: every expected identity has answered. -/
theorem Origin.covered_iff (o : Origin) : o.covered = true ↔ ∀ n : Fin 32, o.expected.getLsbD n.val = true →
    o.responders.getLsbD n.val = true ∨ o.decliners.getLsbD n.val = true := by
  rw [Origin.covered, decide_eq_true_iff, BitVec.eq_of_getLsbD_eq_iff]
  constructor
  · intro h n hn
    have := h n.val n.isLt
    simp only [BitVec.getLsbD_and, BitVec.getLsbD_not, BitVec.getLsbD_or, n.isLt, hn] at this
    simpa [Classical.or_iff_not_imp_left] using this
  · intro h i hi
    have := h ⟨i, hi⟩
    simp only [BitVec.getLsbD_and, BitVec.getLsbD_not, BitVec.getLsbD_or, hi]
    cases hx : o.expected.getLsbD i <;> simp_all [Classical.or_iff_not_imp_left]

/-- R40, R42: the origin part of an entry that has counted an answer: it is closed where that covers the expected set. -/
def Origin.counting (o : Origin) (i : Ident) (declined : Bool) : Origin :=
  if o.state = .collecting ∧ (o.answered i declined).covered = true then (o.answered i declined).closing
  else o.answered i declined

theorem Origin.counting_eq (o : Origin) (i : Ident) (declined : Bool) :
    o.counting i declined = { o with
      state := if o.state = .collecting ∧ (o.answered i declined).covered = true then .closing else o.state
      responders := if declined then o.responders else o.responders ||| identBit i
      decliners := if declined then o.decliners ||| identBit i else o.decliners } := by
  unfold Origin.counting Origin.closing
  split <;> cases declined <;> rfl

theorem Origin.counting_covered (o : Origin) (i : Ident) (declined : Bool) :
    (o.counting i declined).covered = (o.answered i declined).covered := by
  unfold Origin.counting
  split <;> rfl

/-- R40 to R42: an answer that is counted, with room for the CLOSE it may call for. -/
theorem State.countAnswer_eq {s : State} (hs : s.uidsSound = true) {e : Entry} {o : Origin} (he : e ∈ s.cap.table)
    (ho : e.origin = some o) {i : Ident} (hopen : (o.open_ && !o.counted i) = true) (declined : Bool)
    (hroom : s.link.count < 12) :
    s.countAnswer e.uid i declined = { s with
      cap := { s.cap with
        table := s.cap.table.map fun x => if x = e then { x with origin := some (o.counting i declined) } else x }
      link := if o.state = .collecting ∧ (o.answered i declined).covered = true then
        s.link.enqueue (.entry e.uid) (.close none) else s.link } := by
  have hentry := State.entry?_of_mem hs he
  have hanswered : (s.onEntry e.uid fun e => e.onOrigin fun o => o.answered i declined).entry? e.uid =
      some (e.onOrigin fun o => o.answered i declined) := State.entry?_onEntry hentry fun _ => rfl
  have htable : ∀ f : Origin → Origin,
      (s.cap.table.map fun x => if x.uid = e.uid then x.onOrigin f else x) =
        s.cap.table.map fun x => if x = e then { x with origin := some (f o) } else x := fun f => by
    rw [State.map_uid hs he]
    refine List.map_congr_left fun x _ => ?_
    by_cases hx : x = e
    · rw [if_pos hx, if_pos hx, Entry.onOrigin, hx, ho, Option.map_some]
    · rw [if_neg hx, if_neg hx]
  rw [State.countAnswer_of_open hentry ho hopen,
    State.testCover_eq (o := o.answered i declined) hanswered (by simp [Entry.onOrigin, ho]), Origin.answered_state]
  unfold Origin.counting
  by_cases hc : o.state = .collecting ∧ (o.answered i declined).covered = true
  · rw [if_pos hc, if_pos hc, if_pos hc, State.beginClosing_of_room (by exact hroom), ← htable fun o => (o.answered i declined).closing]
    simp only [State.onEntry, State.withLink, List.map_map]
    congr 3
    funext x
    by_cases hx : x.uid = e.uid
    · simp only [Function.comp_apply, hx, if_true, Entry.onOrigin, Option.map_map]
      rfl
    · simp only [Function.comp_apply, hx, if_false]
  · rw [if_neg hc, if_neg hc, if_neg hc, ← htable fun o => o.answered i declined]
    rfl

/-! ### Entries freed with their frames -/

/-- R4, R6: the table without an entry, and the queue without its frames. -/
theorem State.freeEntry_eq {s : State} (hs : s.uidsSound = true) {e : Entry} (he : e ∈ s.cap.table) :
    s.freeEntry e.uid = { s with
      cap := { s.cap with table := s.cap.table.filter fun x => x != e }
      link := { s.link with queue := s.link.queue.filter fun f => f.owner != .entry e.uid } } := by
  rw [State.freeEntry, State.filter_uid hs he]
  simp only [LinkUnit.withdraw, bne_eq_decide_ne]

/-- R13, R144: a declined REPORT that waits is withdrawn, and its tag leaves the declined list. -/
theorem State.withdrawDeclined_of_waiting {s : State} {tag : Tag} (h : ∃ f ∈ s.link.queue, f.owner = .declined tag) :
    s.withdrawDeclined tag = { s with
      cap := { s.cap with declined := s.cap.declined.filter fun t => t != tag }
      link := { s.link with queue := s.link.queue.filter fun f => f.owner != .declined tag } } := by
  rw [State.withdrawDeclined, if_pos (by simpa using h)]
  simp only [State.undecline, State.withLink, LinkUnit.withdraw, bne_eq_decide_ne]

section
variable {s : State} {f : CloseFrame} {e : Entry}

theorem State.closeArrival_member (hj : s.joined = true) (ht : s.tagged? f.tag = some e) (ho : e.origin = none)
    (i : Ident) : s.closeArrival i f = s.freeEntry e.uid := by
  simp [State.closeArrival, hj, ht, ho]

theorem State.closeArrival_waiting (hj : s.joined = true) (ht : s.tagged? f.tag = some e) {o : Origin}
    (ho : e.origin = some o) (hc : o.state = .calling) (hq : s.link.callQueued (.entry e.uid) = true) (i : Ident) :
    s.closeArrival i f = s.freeEntry e.uid := by
  simp [State.closeArrival, hj, ht, ho, hc, hq]

theorem State.closeArrival_lower (hj : s.joined = true) (ht : s.tagged? f.tag = some e) {o : Origin}
    (ho : e.origin = some o) (hc : o.state ≠ .calling) {i : Ident} (hi : i < s.ctrl.identity) :
    s.closeArrival i f = s.freeEntry e.uid := by
  cases hstate : o.state <;> simp_all [State.closeArrival]

theorem State.closeArrival_declined (hj : s.joined = true) (ht : s.tagged? f.tag = none)
    (hd : f.tag ∈ s.cap.declined) (i : Ident) : s.closeArrival i f = s.withdrawDeclined f.tag := by
  simp [State.closeArrival, hj, ht, hd]

end

end Sys2Proof.Machine

namespace Sys2Proof

-- one declaration after the other: fewer threads at a time
set_option Elab.async false

open Machine

/-- Settles O28: the own CALL leaves the queue and the origin part its entry, which is freed where it has outlived its
retention end. -/
theorem ownCallGivesWay : Obligations.OwnCallGivesWay := by
  unfold Obligations.OwnCallGivesWay
  intro dt bytes cls sender b s e o hd hs hends hl hag hg ht ho hc hq huids
  obtain ⟨edge, he⟩ := Option.isSome_iff_exists.mp hends
  have hmem : e ∈ (s.elapse dt).endReception.cap.table := by simpa using (State.tagged?_eq_some ht).1
  have hwaits : (s.elapse dt).endReception.callWaits e = true :=
    (State.callWaits_iff _ e).mpr ⟨o, ho, hc, by simpa using hq⟩
  have hreached : (s.elapse dt).endReception.reachedNet e.retentionEnd =
      !later (e.retentionEnd - s.time.correction) (s.elapse dt).time.localTime := by
    simp [State.reachedNet, State.reached, State.toLocal]
  have h := exec_command (edge := edge) hd hs he
  simp only [Frame.command, Frame.deliver] at h
  rw [h, State.callArrival_own (State.received_fit he hl hag hg) (by simpa using ht) hwaits,
    State.giveUpCall_eq (by simpa using huids) hmem, hreached]
  simp only [State.endReception, State.withLink, State.elapse_cap, State.elapse_queue]
  cases later (e.retentionEnd - s.time.correction) (s.elapse dt).time.localTime <;> simp

/-- Settles O29: the answer is counted, and the covering test follows it. -/
theorem reportCounted : Obligations.ReportCounted := by
  unfold Obligations.ReportCounted
  intro dt bytes cls sender b s e o hd hs hends hl ht ho hstate hbegun hresp hdecl huids hroom
  obtain ⟨edge, he⟩ := Option.isSome_iff_exists.mp hends
  have hmem : e ∈ (s.elapse dt).endReception.cap.table := by simpa using (State.tagged?_eq_some ht).1
  have hopen : (o.open_ && !o.counted sender) = true := by
    rw [← Bool.not_eq_false, Origin.not_open_iff]
    simp [hstate, hbegun, hresp, hdecl]
  have h := exec_command (edge := edge) hd hs he
  simp only [Frame.command, Frame.deliver] at h
  refine ⟨o.counting sender (decide (b.reason ≠ .none)), (o.answered sender (decide (b.reason ≠ .none))).covered,
    ?_, ?_, ?_, ?_, ?_, ?_, ?_, ?_, ?_⟩
  · rw [Origin.counting_eq]
    by_cases hr : b.reason = .none <;> simp [hr]
  · rw [Origin.counting_eq]
    by_cases hr : b.reason = .none <;> simp [hr]
  · rw [← Origin.counting_covered, Origin.covered_iff, Origin.counting_eq]
  · rw [Origin.counting_eq]
  · rw [Origin.counting_eq]
  · rw [Origin.counting_eq]
  · rw [Origin.counting_eq, hbegun]
  · rw [Origin.counting_eq]
  · rw [h, State.reportArrival, State.received_joined he hl]
    simp only [Bool.not_true, Bool.false_eq_true, if_false, State.endReception_tagged?, State.elapse_tagged?, ht]
    rw [State.countAnswer_eq (by simpa using huids) hmem ho hopen _ (by simpa using hroom)]
    by_cases hc : o.state = .collecting ∧ (o.answered sender (decide (b.reason ≠ .none))).covered = true
    · simp only [if_pos hc, State.endReception, State.withLink, LinkUnit.enqueue, State.elapse_cap, State.elapse_queue,
        State.elapse_nextAge]
    · simp only [if_neg hc, State.endReception, State.withLink, State.elapse_cap]

/-- Settles O30: each of the cases of a CLOSE frees its entry, or withdraws the declined REPORT. -/
theorem closeFreesEntry : Obligations.CloseFreesEntry := by
  unfold Obligations.CloseFreesEntry
  intro dt bytes cls sender b s hd hs hends hl
  obtain ⟨edge, he⟩ := Option.isSome_iff_exists.mp hends
  have hj := State.received_joined he hl
  have h := exec_command (edge := edge) hd hs he
  simp only [Frame.command, Frame.deliver] at h
  refine ⟨fun e ht huids hcase => ?_, fun ht hdecl hwaits => ?_⟩
  · have ht' : (s.elapse dt).endReception.tagged? b.tag = some e := by simpa using ht
    have hfree : (s.elapse dt).endReception.closeArrival sender b = (s.elapse dt).endReception.freeEntry e.uid := by
      rcases hcase with ho | ⟨o, ho, hc, hq⟩ | ⟨o, ho, hc, hi⟩
      · exact State.closeArrival_member hj ht' ho _
      · exact State.closeArrival_waiting hj ht' ho hc (by simpa using hq) _
      · exact State.closeArrival_lower hj ht' ho hc (by simpa using hi)
    rw [h, hfree, State.freeEntry_eq (by simpa using huids) (by simpa using (State.tagged?_eq_some ht).1)]
    simp only [State.endReception, State.withLink, State.elapse_cap, State.elapse_queue]
  · rw [h, State.closeArrival_declined hj (by simpa using ht) (by simpa using hdecl),
      State.withdrawDeclined_of_waiting (by simpa using hwaits)]
    simp only [State.endReception, State.withLink, State.elapse_cap, State.elapse_queue]

end Sys2Proof

/-!
PROOFS. Arrivals of PRESETs and of REQUESTs: the place of a preset in its list, and what a taken REQUEST changes and how it
is answered.
-/

namespace Sys2Proof.Machine

-- one declaration after the other: fewer threads at a time
set_option Elab.async false

/-! ### PRESETs -/

/-- R63: a preset joins before the first one whose time is later. -/
theorem insertPreset_split (p : Preset) (l : List Preset) : ∃ earlier behind, l = earlier ++ behind ∧
    (∀ q ∈ earlier, later q.time p.time = false) ∧ (∀ q, behind.head? = some q → later q.time p.time = true) ∧
    insertPreset p l = earlier ++ p :: behind := by
  induction l with
  | nil => exact ⟨[], [], rfl, by simp, by simp, rfl⟩
  | cons q rest ih =>
    unfold insertPreset
    by_cases hq : later q.time p.time = true
    · exact ⟨[], q :: rest, rfl, by simp, by simpa using hq, by simp [hq]⟩
    · obtain ⟨earlier, behind, hsplit, hearlier, hbehind, hinsert⟩ := ih
      refine ⟨q :: earlier, behind, by simp [hsplit], ?_, hbehind, by simp [hq, hinsert]⟩
      simpa [hq] using hearlier

theorem State.presetArrival_refused {s : State} {f : PresetFrame} (hfit : (s.joined && s.declares f.group) = true)
    (hnew : s.presetDuplicate f = false) {reason : RefusalReason} (hr : s.presetRefusal f = some reason) (i : Ident) :
    s.presetArrival i f = { s with req := { s.req with refusal := ⟨reason, i, f.group⟩ } } := by
  simp [State.presetArrival, hfit, hnew, hr]

theorem State.presetArrival_taken {s : State} {f : PresetFrame} (hfit : (s.joined && s.declares f.group) = true)
    (hnew : s.presetDuplicate f = false) (hr : s.presetRefusal f = none) (i : Ident) :
    s.presetArrival i f = { s with hist := { s.hist with
      presets := insertPreset ⟨f.group, f.time, f.value, s.channelMap f.group⟩ s.hist.presets } } := by
  simp [State.presetArrival, hfit, hnew, hr]

theorem crowded_iff (presets : List Preset) (chans : ChanSet) (t : Time) (period : Nat) :
    crowded presets chans t period = true ↔
      ∃ q ∈ presets, q.chans &&& chans ≠ 0 ∧ (timeDiff q.time t).natAbs ≤ period := by
  simp [crowded, overlaps]

/-! ### The answer to a REQUEST -/

theorem LinkUnit.predecessor_reply {l : LinkUnit} {requester : Ident} (c : Option ReplyFrame)
    (h : ∀ f ∈ l.queue, ∀ other c, f.content = .reply other c → other ≠ requester) :
    l.predecessor (.reply requester c) = none := by
  refine List.find?_eq_none.mpr fun f hf => ?_
  cases hc : f.content with
  | reply other c => simpa using h f hf other c hc
  | call _ | report _ | close _ | leave _ | beacon _ => simp

/-- R157: a REPLY that finds room, and none that waits for its requester. -/
theorem State.offerReply_of_room {s : State} {requester : Ident} (kind : Byte) (result : ReplyResult)
    (hroom : s.link.count < 12)
    (hnew : ∀ f ∈ s.link.queue, ∀ other c, f.content = .reply other c → other ≠ requester) :
    s.offerReply requester kind result = { s with
      req := { s.req with
        replies := s.req.replies ++ [⟨s.req.nextId, requester, kind, result, false⟩], nextId := s.req.nextId + 1 }
      link := s.link.enqueue (.reply s.req.nextId) (.reply requester none) } := by
  unfold State.offerReply
  simp only
  rw [State.offer_of_room (by exact LinkUnit.predecessor_reply none hnew) (by simpa [Config.queueSize] using hroom)]
  rfl

theorem State.requestArrival_taken {s : State} {f : RequestFrame} (h : s.takesRequest f = true) (i : Ident) :
    s.requestArrival i f = (s.carryOut f.read).1.offerReply i f.kind (s.carryOut f.read).2 := by
  simp [State.requestArrival, h]

theorem State.received_takesRequest {s : State} {dt : Lapse} {bytes : List Byte} {edge : Time} {f : RequestFrame}
    (h : (s.elapse dt).frameEnds bytes = some edge) (hl : s.ctrl.lifecycle = .joined)
    (ht : f.target = s.ctrl.identity) : (s.elapse dt).endReception.takesRequest f = true := by
  simp only [State.takesRequest, State.received_joined h hl, State.endReception_ctrl, State.elapse_ctrl, ht, decide_true,
    Bool.and_true]

/-! ### TERM-CONTROL -/

/-- R128: the term after an ARM. -/
def State.armedTerm (s : State) (k : TermNo) : Term :=
  if (s.image.terms.get k).condition = .none then s.trig.terms.get k
  else if (s.trig.terms.get k).state = .disarmed then
    { s.trig.terms.get k with state := .armed, fireLost := false, ready := s.readyMark k }
  else { s.trig.terms.get k with fireLost := false }

/-- R128: the term after a DISARM. -/
def State.disarmedTerm (s : State) (k : TermNo) : Term :=
  if (s.image.terms.get k).condition = .none then s.trig.terms.get k
  else { s.trig.terms.get k with state := .disarmed }

/-- The state with another term `k`. -/
def State.withTerm (s : State) (k : TermNo) (t : Term) : State :=
  { s with trig := { s.trig with terms := s.trig.terms.set k t } }

theorem State.withTerm_self (s : State) (k : TermNo) : s.withTerm k (s.trig.terms.get k) = s := by
  simp [State.withTerm]

theorem State.armedTerm_blocked (s : State) (k : TermNo) : (s.armedTerm k).blocked = (s.trig.terms.get k).blocked := by
  unfold State.armedTerm
  split <;> [rfl; split <;> rfl]

theorem State.disarmedTerm_blocked (s : State) (k : TermNo) :
    (s.disarmedTerm k).blocked = (s.trig.terms.get k).blocked := by
  unfold State.disarmedTerm
  split <;> rfl

theorem State.armTerm_eq (s : State) (k : TermNo) : s.armTerm k = s.withTerm k (s.armedTerm k) := by
  unfold State.armTerm State.armedTerm
  by_cases hc : (s.image.terms.get k).condition = .none
  · rw [if_neg (by simp [Condition.used, hc]), if_pos hc, State.withTerm_self]
  · rw [if_pos (by simp [Condition.used, hc]), if_neg hc]
    cases hs : (s.trig.terms.get k).state <;> simp [State.onTerm, State.withTerm, hs]

theorem State.disarmTerm_eq (s : State) (k : TermNo) : s.disarmTerm k = s.withTerm k (s.disarmedTerm k) := by
  unfold State.disarmTerm State.disarmedTerm
  by_cases hc : (s.image.terms.get k).condition = .none
  · rw [if_neg (by simp [Condition.used, hc]), if_pos hc, State.withTerm_self]
  · rw [if_pos (by simp [Condition.used, hc]), if_neg hc]
    rfl

theorem State.termResult_eq (s : State) (k : TermNo) :
    s.termResult k = if (s.image.terms.get k).condition = .none then .noTerm else .done := by
  by_cases hc : (s.image.terms.get k).condition = .none <;> simp [State.termResult, Condition.used, hc]

/-- R92, R113, R123: the lines and flags stand still where what they follow does. -/
theorem State.linesSound_of_same {s t : State} (hs : s.linesSound = true) (hctrl : t.ctrl = s.ctrl)
    (htime : t.time.state = s.time.state) (hchans : t.chans = s.chans) (himage : t.image = s.image)
    (hblocked : ∀ k, (t.trig.terms.get k).blocked = (s.trig.terms.get k).blocked) : t.linesSound = true := by
  have hsync : t.syncHolds = s.syncHolds := by simp [State.syncHolds, hctrl, htime]
  have hfault : t.faultHolds = s.faultHolds := by simp [State.faultHolds, State.active, hctrl, hchans, himage]
  rw [State.linesSound_iff] at hs ⊢
  rw [hsync, hfault, hctrl, hchans, himage]
  simpa [hblocked] using hs

/-! ### FAULT-ACK -/

theorem Channel.faultAck_fault {c : Channel} (h : c.quality = .fault) : c.faultAck = { c with recR := c.recR.clear } := by
  simp [Channel.faultAck, h]

theorem Channel.faultAck_good {c : Channel} (h : c.quality = .good) : c.faultAck = c.clearFlags := by
  simp [Channel.faultAck, h]

theorem Channel.faultAck_unconfirmed {c : Channel} (h : c.quality = .unconfirmed) : c.faultAck = c.acknowledge := by
  simp [Channel.faultAck, h]

end Sys2Proof.Machine

namespace Sys2Proof

-- one declaration after the other: fewer threads at a time
set_option Elab.async false

open Machine

/-- Settles O31: the reasons are tested in their order, and a preset that none meets joins in its place. -/
theorem presetChecked : Obligations.PresetChecked := by
  unfold Obligations.PresetChecked
  intro dt bytes cls sender b s hd hs hends hl hg hdup now reason
  obtain ⟨edge, he⟩ := Option.isSome_iff_exists.mp hends
  have hfit : ((s.elapse dt).endReception.joined && (s.elapse dt).endReception.declares b.group) = true := by
    rw [State.received_joined he hl, State.declares, State.endReception_image, State.elapse_image, hg]
    rfl
  have hnew : (s.elapse dt).endReception.presetDuplicate b = false := by
    rw [← Bool.not_eq_true, State.presetDuplicate_iff]
    simpa using hdup
  have hrefusal : (s.elapse dt).endReception.presetRefusal b = if reason = .none then none else some reason := by
    have hcrowded := crowded_iff s.hist.presets s.image.groups[b.group].map b.time s.image.samplePeriod
    have hnow : (s.elapse dt).endReception.netTime = now := rfl
    simp only [State.presetRefusal, hnow, State.endReception_hist, State.elapse_hist, State.channelMap,
      State.endReception_image, State.elapse_image, hcrowded, Config.horizon, Config.presetSize, reason]
    by_cases hlate : later b.time now = false
    · simp [hlate]
    by_cases hfar : 1000000 < timeDiff b.time now
    · simp [hlate, hfar]
    by_cases hfull : 4 ≤ s.hist.presets.length
    · simp [hlate, hfar, hfull]
    by_cases hcrowd : ∃ q ∈ s.hist.presets, q.chans &&& s.image.groups[b.group].map ≠ 0 ∧
        (timeDiff q.time b.time).natAbs ≤ s.image.samplePeriod
    · simp only [hlate, hfar, hfull, hcrowd, if_true, if_false, Nat.cast_ofNat]
      simp
    · simp only [hlate, hfar, hfull, hcrowd, if_false, Nat.cast_ofNat]
      simp
  have h := exec_command (edge := edge) hd hs he
  simp only [Frame.command, Frame.deliver] at h
  refine ⟨fun hreason => ?_, fun hreason => ?_⟩
  · rw [h, State.presetArrival_refused hfit hnew (by rw [hrefusal, if_neg hreason])]
    simp only [State.endReception, State.withLink, State.elapse_req]
  · obtain ⟨earlier, behind, hsplit, hearlier, hbehind, hinsert⟩ :=
      insertPreset_split ⟨b.group, b.time, b.value, s.image.groups[b.group].map⟩ s.hist.presets
    refine ⟨earlier, behind, hsplit, hearlier, hbehind, ?_⟩
    rw [h, State.presetArrival_taken hfit hnew (by rw [hrefusal, if_pos hreason])]
    simp only [State.endReception, State.withLink, State.elapse_hist, State.channelMap, State.elapse_image, hinsert]

/-- Settles O32: such a REQUEST changes nothing, and is answered. -/
theorem statusAndUnknownAnswered : Obligations.StatusAndUnknownAnswered := by
  unfold Obligations.StatusAndUnknownAnswered
  intro dt bytes cls sender b s hd hs hends hl htarget hroom hnew p hp hread
  obtain ⟨edge, he⟩ := Option.isSome_iff_exists.mp hends
  have h := exec_command (edge := edge) hd hs he
  have hanswer : ∀ result, (s.elapse dt).endReception.carryOut b.read = ((s.elapse dt).endReception, result) →
      ((s.elapse dt).endReception.requestArrival sender b).settle = State.settle { s.elapse dt with
        req := { s.req with
          replies := s.req.replies ++ [⟨s.req.nextId, sender, b.kind, result, false⟩], nextId := s.req.nextId + 1 }
        link := { (s.elapse dt).link with
          idleCount := some 0, receiver := .waiting, nextAge := s.link.nextAge + 1
          queue := insertFrame ⟨.reply s.req.nextId, .reply sender none, s.link.nextAge, 0, false⟩ s.link.queue } } := by
    intro result hcarry
    rw [State.requestArrival_taken (State.received_takesRequest he hl htarget), hcarry,
      State.offerReply_of_room _ _ (by simpa using hroom) (by simpa using hnew)]
    simp only [State.endReception, State.withLink, LinkUnit.enqueue, State.elapse_req, State.elapse_queue,
      State.elapse_nextAge]
  simp only [List.mem_cons, List.not_mem_nil, or_false] at hp
  rcases hp with rfl | rfl
  · simp only [Frame.command, Frame.deliver, hread] at h
    rw [h, hanswer .done (by rw [hread]; rfl)]
  · simp only [Frame.command, Frame.deliver, hread] at h
    rw [h, hanswer .unknown (by rw [hread]; rfl)]

/-- Settles O33: the term takes the row of the table its state gives, which leaves its blocked flag alone, so that no line
or flag has to follow. -/
theorem termControlActs : Obligations.TermControlActs := by
  unfold Obligations.TermControlActs
  intro dt bytes cls sender b s k arm hd hs hends hl htarget hroom hlines hnew hread old c
  obtain ⟨edge, he⟩ := Option.isSome_iff_exists.mp hends
  have h := exec_command (edge := edge) hd hs he
  have hj := State.received_joined he hl
  have hcount : (s.elapse dt).endReception.link.count < 12 := by simpa using hroom
  have hanswer : ∀ term : Term, term.blocked = old.blocked →
      (((s.elapse dt).endReception.withTerm k term).offerReply sender b.kind
        (if c = .none then .noTerm else .done)).settle =
      { s.elapse dt with
        trig := { s.trig with terms := s.trig.terms.set k term }
        req := { s.req with
          replies := s.req.replies ++ [⟨s.req.nextId, sender, b.kind, if c = .none then .noTerm else .done, false⟩]
          nextId := s.req.nextId + 1 }
        link := { (s.elapse dt).link with
          idleCount := some 0, receiver := .waiting, nextAge := s.link.nextAge + 1
          queue := insertFrame ⟨.reply s.req.nextId, .reply sender none, s.link.nextAge, 0, false⟩ s.link.queue } } := by
    intro term hblocked
    rw [State.offerReply_of_room _ _ (by exact hcount) (by simpa [State.withTerm] using hnew), State.settle_of_sound]
    · simp only [State.withTerm, State.endReception, State.withLink, LinkUnit.enqueue, State.elapse_req,
        State.elapse_queue, State.elapse_nextAge, State.elapse_trig]
    · refine State.linesSound_of_same hlines (by simp [State.withTerm]) (by simp [State.withTerm])
        (by simp [State.withTerm]) (by simp [State.withTerm]) fun j => ?_
      by_cases hj : j = k
      · simp [State.withTerm, hj, hblocked, old]
      · simp [State.withTerm, Four.get_set_of_ne _ hj]
  have hresult : (s.elapse dt).endReception.termResult k = if c = .none then .noTerm else .done := by
    simp [State.termResult_eq, c]
  cases arm with
  | true =>
    simp only [if_true] at hread
    simp only [Frame.command, Frame.deliver, hread] at h
    have hblocked : ((s.elapse dt).endReception.armedTerm k).blocked = old.blocked := by
      simp [State.armedTerm_blocked, old]
    refine ⟨(s.elapse dt).endReception.armedTerm k, ?_, hblocked, fun hc => ?_, by simp, fun hc _ => ?_⟩
    · rw [if_pos rfl, h, State.requestArrival_taken (State.received_takesRequest he hl htarget), hread]
      simp only [State.carryOut, State.armTerm_eq, hresult]
      rw [hanswer _ hblocked]
    · simp only [c] at hc
      simp [State.armedTerm, hc, old]
    · simp only [c] at hc
      by_cases hstate : old.state = .disarmed <;> simp only [old] at hstate <;>
        simp [State.armedTerm, hc, hstate, old, c, State.readyMark, State.judged, State.joined_of
          (State.released_of_frameEnds he) hl]
  | false =>
    simp only [Bool.false_eq_true, if_false] at hread
    simp only [Frame.command, Frame.deliver, hread] at h
    have hblocked : ((s.elapse dt).endReception.disarmedTerm k).blocked = old.blocked := by
      simp [State.disarmedTerm_blocked, old]
    refine ⟨(s.elapse dt).endReception.disarmedTerm k, ?_, hblocked, fun hc => ?_, fun hc _ => ?_, by simp⟩
    · rw [if_neg (by simp), h, State.requestArrival_taken (State.received_takesRequest he hl htarget), hread]
      simp only [State.carryOut, State.disarmTerm_eq, hresult]
      rw [hanswer _ hblocked]
    · simp only [c] at hc
      simp [State.disarmedTerm, hc, old]
    · simp only [c] at hc
      simp [State.disarmedTerm, hc, old]

/-- Settles O34: each selected active channel takes the row of the table its quality gives. -/
theorem faultAckActs : Obligations.FaultAckActs := by
  unfold Obligations.FaultAckActs
  intro dt bytes cls sender b s chans hd hs hends hl htarget hroom hnew hread
  obtain ⟨edge, he⟩ := Option.isSome_iff_exists.mp hends
  have h := exec_command (edge := edge) hd hs he
  simp only [Frame.command, Frame.deliver, hread] at h
  refine ⟨((s.elapse dt).endReception.ackChannels chans).chans,
    if s.stillPresent chans then .stillPresent else .done, ?_, ?_, by cases s.stillPresent chans <;> simp, fun i => ?_⟩
  · have hstill : (s.elapse dt).endReception.stillPresent chans = s.stillPresent chans := by
      simp [State.stillPresent, State.active]
    rw [h, State.requestArrival_taken (State.received_takesRequest he hl htarget), hread]
    simp only [State.carryOut, hstill]
    rw [State.offerReply_of_room _ _ (by simpa [State.ackChannels] using hroom)
      (by simpa [State.ackChannels] using hnew)]
    simp only [State.ackChannels, State.endReception, State.withLink, LinkUnit.enqueue, State.elapse_req,
      State.elapse_queue, State.elapse_nextAge]
  · have hstill : s.stillPresent chans = true ↔
        ∃ i : Chan, chans.getLsbD i.val = true ∧ s.image.modes.get i ≠ .off ∧ (s.chans.get i).quality = .fault := by
      simp [State.stillPresent, State.active, mem_four, and_assoc]
    rw [← hstill]
    cases s.stillPresent chans <;> simp
  · have hafter : ((s.elapse dt).endReception.ackChannels chans).chans.get i =
        if chans.getLsbD i.val = false ∨ s.image.modes.get i = .off then s.chans.get i else (s.chans.get i).faultAck := by
      simp only [State.ackChannels, State.active, Four.get_build, State.endReception_image, State.elapse_image,
        State.endReception_chans, State.elapse_chans, Bool.and_eq_true, decide_eq_true_iff]
      cases hsel : chans.getLsbD i.val <;> by_cases hoff : s.image.modes.get i = .off <;> simp [hoff]
    simp only [hafter]
    by_cases hsel : chans.getLsbD i.val = false ∨ s.image.modes.get i = .off
    · simp only [if_pos hsel]
    · simp only [if_neg hsel]
      cases hq : (s.chans.get i).quality with
      | fault =>
        rw [Channel.faultAck_fault hq]
        exact ⟨rfl, rfl, rfl, rfl, fun n => by cases n <;> simp [Channel.record],
          LineRecord.clear_latched _, hq, rfl, rfl, rfl⟩
      | good =>
        rw [Channel.faultAck_good hq]
        exact ⟨rfl, rfl, rfl, rfl, fun n => by cases n <;> simp [Channel.record, Channel.clearFlags],
          LineRecord.clear_latched _, hq, rfl, LineRecord.clear_latched _, LineRecord.clear_latched _⟩
      | unconfirmed =>
        rw [Channel.faultAck_unconfirmed hq]
        exact ⟨rfl, rfl, rfl, rfl, fun n => by cases n <;> simp [Channel.record, Channel.acknowledge, Channel.clearFlags],
          LineRecord.clear_latched _, rfl, rfl, LineRecord.clear_latched _, LineRecord.clear_latched _⟩

end Sys2Proof

/-!
PROOFS. The changes out of JOINED: the flush of an emptied capture unit's frames, the fires that are lost with it, and the
supply warning and the identity conflict that cause it.
-/

namespace Sys2Proof.Machine

-- one declaration after the other: fewer threads at a time
set_option Elab.async false

/-! ### The reply list as frames are flushed -/

/-- The reply list without the entries of some frames. -/
def State.withoutReplies (s : State) (l : List QFrame) : State :=
  { s with req := { s.req with replies := s.req.replies.filter fun r => !(l.any fun f => f.replyId? == some r.id) } }

theorem State.withoutReplies_of_none {s : State} {l : List QFrame} (h : ∀ f ∈ l, f.replyId? = none) :
    s.withoutReplies l = s := by
  have hall : (s.req.replies.filter fun r => !(l.any fun f => f.replyId? == some r.id)) = s.req.replies := by
    rw [List.filter_eq_self]
    intro r _
    simpa using fun f hf => by simp [h f hf]
  rw [State.withoutReplies, hall]

theorem State.dropReply_eq {s : State} {f : QFrame} {id : Nat} (h : f.owner = .reply id) :
    s.dropReply id = s.withoutReplies [f] := by
  have hid : f.replyId? = some id := by simp [QFrame.replyId?, h]
  simp only [State.dropReply, State.withoutReplies, List.any_cons, List.any_nil, Bool.or_false, hid]
  congr 3
  funext r
  by_cases hr : r.id = id <;> grind

theorem State.withoutReplies_append (s : State) (l l' : List QFrame) :
    (s.withoutReplies l).withoutReplies l' = s.withoutReplies (l ++ l') := by
  simp only [State.withoutReplies, List.filter_filter, List.any_append, Bool.not_or]
  congr 3
  funext r
  rw [Bool.and_comm]

/-! ### Losses of an emptied capture unit -/

/-- The capture unit holds nothing, and nothing waits in the queue. -/
structure State.Emptied (s : State) : Prop where
  table : s.cap.table = []
  declined : s.cap.declined = []
  queue : s.link.queue = []

theorem State.Emptied.onEntry {s : State} (h : s.Emptied) (uid : Nat) (f : Entry → Entry) : s.onEntry uid f = s := by
  have hmap : (s.cap.table.map fun e => if e.uid = uid then f e else e) = s.cap.table := by simp [h.table]
  rw [State.onEntry, hmap]

theorem State.Emptied.freeEntry {s : State} (h : s.Emptied) (uid : Nat) : s.freeEntry uid = s := by
  have htable : (s.cap.table.filter fun e => e.uid != uid) = s.cap.table := by simp [h.table]
  have hqueue : (s.link.queue.filter fun f => decide (f.owner ≠ .entry uid)) = s.link.queue := by simp [h.queue]
  rw [State.freeEntry, LinkUnit.withdraw, htable, hqueue]

theorem State.Emptied.undecline {s : State} (h : s.Emptied) (tag : Tag) : s.undecline tag = s := by
  have hdeclined : (s.cap.declined.filter fun t => decide (t ≠ tag)) = s.cap.declined := by simp [h.declined]
  rw [State.undecline, hdeclined]

theorem State.Emptied.callLost {s : State} (h : s.Emptied) (uid : Nat) : s.callLost uid = s := by
  simp [State.callLost, State.entry?, h.table]

/-- What a loss says finds nothing, but for the reply list and a LEAVE in LEAVING. -/
theorem State.Emptied.lose {s : State} (h : s.Emptied) (f : QFrame) {o : Loss}
    (hc : f.owner = .controller → o = .withdrawn ∨ s.ctrl.lifecycle ≠ .leaving) : s.lose f o = s.withoutReplies [f] := by
  have hnone : f.replyId? = none → s.withoutReplies [f] = s := fun hn =>
    State.withoutReplies_of_none (by simpa using hn)
  obtain ⟨owner, content, age, attempts, started⟩ := f
  cases owner with
  | entry uid =>
    rw [hnone rfl]
    cases content <;> simp [State.lose, h.callLost, h.onEntry, h.freeEntry]
  | declined tag =>
    rw [hnone rfl]
    exact h.undecline tag
  | time => rw [hnone rfl]; rfl
  | reply id => exact State.dropReply_eq rfl
  | controller =>
    rw [hnone rfl]
    rcases hc rfl with ho | hl
    · simp [State.lose, ho]
    · rcases s.leaveEnded_cases with e | ⟨hl', -⟩ | ⟨hl', -⟩
      · simp [State.lose, e]
      · exact absurd hl' hl
      · exact absurd hl' hl

theorem State.Emptied.foldl_lose {s : State} (h : s.Emptied) (l : List QFrame) :
    l.foldl (fun s f => s.lose f .withdrawn) s = s.withoutReplies l := by
  induction l generalizing s with
  | nil => exact (State.withoutReplies_of_none (by simp)).symm
  | cons f rest ih =>
    have hempty : (s.withoutReplies [f]).Emptied := ⟨h.table, h.declined, h.queue⟩
    rw [List.foldl_cons, h.lose f fun _ => .inl rfl, ih hempty, State.withoutReplies_append]
    rfl

/-- R149: the frames a flush drops: those not on the wire. -/
def LinkUnit.dropped (l : LinkUnit) : List QFrame :=
  l.queue ++ ((l.flight.filter fun fl => !fl.onWire).map Flight.frame).toList

/-- R149, R162: the flush of an emptied capture unit's frames takes the reply-list entries of those it drops. -/
theorem State.flushLink_emptied {s : State} (ht : s.cap.table = []) (hd : s.cap.declined = [])
    (hc : ∀ fl, s.link.flight = some fl → fl.onWire = false → fl.frame.owner = .controller →
      s.ctrl.lifecycle ≠ .leaving) :
    s.flushLink = (s.withLink s.link.flushed).withoutReplies s.link.dropped := by
  have hempty : (s.withLink s.link.flushed).Emptied := ⟨ht, hd, rfl⟩
  have hqueue : ((s.withLink s.link.flushed).withoutReplies s.link.queue).Emptied := ⟨ht, hd, rfl⟩
  rw [State.flushLink_eq]
  cases hf : s.link.flight with
  | none => simp [hempty.foldl_lose, LinkUnit.dropped, hf]
  | some fl =>
    cases hw : fl.onWire
    · simp only [hw, Bool.false_eq_true, if_false, hempty.foldl_lose]
      rw [hqueue.lose fl.frame fun ho => .inr (hc fl hf hw ho), State.withoutReplies_append]
      simp [LinkUnit.dropped, hf, hw, Option.filter]
    · simp [hw, hempty.foldl_lose, LinkUnit.dropped, hf, Option.filter]

/-! ### Fires that are lost -/

/-- R127: a term whose fires in `lost` are lost. -/
theorem State.foldl_setFireLost_terms (s : State) (lost : List TermNo) :
    lost.foldl State.setFireLost s = s.withTerms fun k =>
      { s.trig.terms.get k with fireLost := (s.trig.terms.get k).fireLost || lost.contains k } := by
  induction lost generalizing s with
  | nil =>
    have hterms : (Four.build fun k => { s.trig.terms.get k with
        fireLost := (s.trig.terms.get k).fireLost || ([] : List TermNo).contains k }) = s.trig.terms := by
      refine Four.ext_get fun k => ?_
      simp
    rw [State.withTerms, hterms]
    rfl
  | cons i rest ih =>
    rw [List.foldl_cons, ih]
    simp only [State.withTerms, State.setFireLost, State.onTerm]
    congr 2
    refine Four.ext_get fun k => ?_
    simp only [Four.get_build]
    by_cases hk : k = i
    · simp [hk]
    · rw [Four.get_set_of_ne _ hk]
      simp [hk]

/-- R49: the fires lost at a change out of JOINED are those whose CALL is in CALLING and not on the wire. -/
theorem State.mem_lostAtFlush (s : State) (k : TermNo) : k ∈ s.cap.table.filterMap s.lostAtFlush ↔
    ∃ e ∈ s.cap.table, ∃ o, e.origin = some o ∧ o.state = .calling ∧ o.term = some k ∧
      s.link.callOnWire (.entry e.uid) = false := by
  rw [List.mem_filterMap]
  refine exists_congr fun e => and_congr_right fun _ => ?_
  unfold State.lostAtFlush
  cases e.origin with
  | none => simp
  | some o => simp; grind

/-- R124, R127: a term after a change out of JOINED. -/
def State.termDropped (s : State) (lost : List TermNo) (k : TermNo) : Term where
  state := if (s.image.terms.get k).condition = .none then (s.trig.terms.get k).state else .disarmed
  blocked := (s.trig.terms.get k).blocked
  fireLost := (s.trig.terms.get k).fireLost || lost.contains k
  ready := if (s.image.terms.get k).condition = .none then (s.trig.terms.get k).ready else false

/-- R27, R49, R69, R124: what a change out of JOINED drops, before the frames. -/
def State.dropped (s : State) (l : Lifecycle) : State :=
  { s with
    ctrl := { s.ctrl with lifecycle := l }
    cap := { s.cap with table := [], declined := [], schedules := [] }
    hist := { s.hist with presets := [], touched := 0 }
    trig := { s.trig with terms := Four.build (s.termDropped (s.cap.table.filterMap s.lostAtFlush)) } }

theorem State.dropAll_eq_flush (s : State) (l : Lifecycle) : s.dropAll l = (s.dropped l).flushLink := by
  unfold State.dropAll State.flushCapture
  simp only
  rw [State.foldl_setFireLost_terms]
  congr 1
  simp only [State.dropped, State.withTerms, State.clearPresets, State.disarmAll]
  congr 2
  refine Four.ext_get fun k => ?_
  have hlost : State.lostAtFlush { s with ctrl := { s.ctrl with lifecycle := l } } = s.lostAtFlush := rfl
  simp only [Four.get_build, hlost, State.termDropped]
  by_cases hc : (s.image.terms.get k).condition = .none <;> simp [Condition.used, hc]

/-- R27, R49, R69, R124, R149: the state once JOINED is left for the state `l`. -/
def State.leftJoined (s : State) (l : Lifecycle) : State :=
  ((s.dropped l).withLink s.link.flushed).withoutReplies s.link.dropped

theorem State.dropAll_eq_leftJoined {s : State} {l : Lifecycle}
    (hc : l = .leaving → ∀ fl, s.link.flight = some fl → fl.frame.owner ≠ .controller) : s.dropAll l = s.leftJoined l := by
  rw [State.dropAll_eq_flush, State.flushLink_emptied rfl rfl]
  · rfl
  · exact fun fl hf _ ho hl => hc hl fl hf ho

section
variable (s : State) (l : Lifecycle)

@[simp] theorem State.leftJoined_ctrl : (s.leftJoined l).ctrl = { s.ctrl with lifecycle := l } := rfl

@[simp] theorem State.leftJoined_cap :
    (s.leftJoined l).cap = { s.cap with table := [], declined := [], schedules := [] } := rfl

@[simp] theorem State.leftJoined_hist : (s.leftJoined l).hist = { s.hist with presets := [], touched := 0 } := rfl

@[simp] theorem State.leftJoined_link : (s.leftJoined l).link = s.link.flushed := rfl

@[simp] theorem State.leftJoined_time : (s.leftJoined l).time = s.time := rfl

@[simp] theorem State.leftJoined_chans : (s.leftJoined l).chans = s.chans := rfl

@[simp] theorem State.leftJoined_pins : (s.leftJoined l).pins = s.pins := rfl

@[simp] theorem State.leftJoined_image : (s.leftJoined l).image = s.image := rfl

@[simp] theorem State.leftJoined_pending : (s.leftJoined l).pending = s.pending := rfl

theorem State.leftJoined_trig : (s.leftJoined l).trig = { s.trig with
    terms := Four.build (s.termDropped (s.cap.table.filterMap s.lostAtFlush)) } := rfl

theorem State.leftJoined_req : (s.leftJoined l).req = { s.req with
    replies := s.req.replies.filter fun r => !(s.link.dropped.any fun f => f.replyId? == some r.id) } := rfl

/-- R49, R124, R127: what becomes of a term. -/
theorem State.leftJoined_term (k : TermNo) :
    ((s.leftJoined l).trig.terms.get k).state =
      (if (s.image.terms.get k).condition = .none then (s.trig.terms.get k).state else .disarmed) ∧
    ((s.leftJoined l).trig.terms.get k).ready =
      (if (s.image.terms.get k).condition = .none then (s.trig.terms.get k).ready else false) ∧
    ((s.leftJoined l).trig.terms.get k).blocked = (s.trig.terms.get k).blocked ∧
    (((s.leftJoined l).trig.terms.get k).fireLost = true ↔ (s.trig.terms.get k).fireLost = true ∨
      ∃ e ∈ s.cap.table, ∃ o, e.origin = some o ∧ o.state = .calling ∧ o.term = some k ∧
        s.link.callOnWire (.entry e.uid) = false) := by
  have hterm : (s.leftJoined l).trig.terms.get k = s.termDropped (s.cap.table.filterMap s.lostAtFlush) k :=
    Four.get_build _ k
  rw [hterm]
  refine ⟨rfl, rfl, rfl, ?_⟩
  simp only [State.termDropped, Bool.or_eq_true, List.contains_iff_mem, s.mem_lostAtFlush]

end

/-- The frames a flush drops, one by one. -/
theorem LinkUnit.any_dropped (l : LinkUnit) (p : QFrame → Bool) :
    l.dropped.any p = (l.queue.any p || (l.flight.any fun fl => !fl.onWire && p fl.frame)) := by
  unfold LinkUnit.dropped
  cases hf : l.flight with
  | none => simp
  | some fl => cases hw : fl.onWire <;> simp [hw, Option.filter]

theorem LinkUnit.flushed_of_silent {l : LinkUnit} (h : l.sending = false) :
    l.flushed = { l with queue := [], flight := none } := by
  unfold LinkUnit.flushed LinkUnit.sending at *
  cases hf : l.flight <;> simp_all

/-! ### The lines and flags afterwards -/

/-- R92, R113: where the blocked flags stand as their conditions do, the settling step drives the two lines alone. -/
theorem State.settle_lines {s : State}
    (h : ∀ k, (s.trig.terms.get k).blocked = (s.image.terms.get k).condition.blocked s.chans) :
    s.settle = { s with ctrl := { s.ctrl with syncLine := s.syncHolds, faultLine := s.faultHolds } } := by
  have hterms : s.trackTerms = s.trig.terms := Four.ext_get fun k => by
    simp only [State.trackTerms, Four.get_build]
    exact Term.track_of_eq (h k).symm
  rw [State.settle, hterms]

theorem State.faultHolds_of_same {s t : State} (hchans : t.chans = s.chans) (himage : t.image = s.image)
    (hs : s.ctrl.lifecycle ≠ .halted ∧ s.ctrl.lifecycle ≠ .muted)
    (ht : t.ctrl.lifecycle ≠ .halted ∧ t.ctrl.lifecycle ≠ .muted) : t.faultHolds = s.faultHolds := by
  obtain ⟨hs1, hs2⟩ := hs
  obtain ⟨ht1, ht2⟩ := ht
  simp [State.faultHolds, State.active, hchans, himage, hs1, hs2, ht1, ht2]

/-- R92, R113: what the settling step makes of the lines once JOINED is left. -/
theorem State.leftJoined_settle {s t : State} {l : Lifecycle}
    (h : ∀ k, (s.trig.terms.get k).blocked = (s.image.terms.get k).condition.blocked s.chans) (hctrl : t.ctrl.lifecycle = l)
    (htrig : t.trig = (s.leftJoined l).trig) (hchans : t.chans = s.chans) (himage : t.image = s.image) (hl : l ≠ .joined) :
    t.settle = { t with ctrl := { t.ctrl with syncLine := false, faultLine := t.faultHolds } } := by
  rw [State.settle_lines fun k => ?_]
  · simp [State.syncHolds, hctrl, hl]
  · rw [htrig, (s.leftJoined_term l k).2.2.1, himage, hchans, h k]

/-! ### The controller and the sequence counter as frames are flushed -/

/-- What a loss leaves alone of the controller, outside LEAVING, and of the sequence counter. -/
theorem State.lose_ctrl_sequence {s : State} (h : s.ctrl.lifecycle ≠ .leaving) (f : QFrame) (o : Loss) :
    (s.lose f o).ctrl = s.ctrl ∧ (s.lose f o).cap.sequence = s.cap.sequence := by
  have hcall : ∀ uid, (s.callLost uid).ctrl = s.ctrl ∧ (s.callLost uid).cap.sequence = s.cap.sequence := fun uid => by
    unfold State.callLost
    split <;> [exact ⟨rfl, rfl⟩; split <;> exact ⟨rfl, rfl⟩]
  have hleave : s.leaveEnded = s := by
    rcases s.leaveEnded_cases with e | ⟨hl, -⟩ | ⟨hl, -⟩
    · exact e
    · exact absurd hl h
    · exact absurd hl h
  obtain ⟨owner, content, age, attempts, started⟩ := f
  cases owner with
  | entry uid =>
    cases content
    case call c => simp only [State.lose]; split <;> [exact ⟨rfl, rfl⟩; exact hcall uid]
    case report c => simp only [State.lose]; split <;> exact ⟨rfl, rfl⟩
    case close c => simp only [State.lose]; split <;> exact ⟨rfl, rfl⟩
    all_goals exact ⟨rfl, rfl⟩
  | controller => simp only [State.lose, hleave, ite_self, and_self]
  | declined tag | time | reply id => exact ⟨rfl, rfl⟩

theorem State.foldl_lose_ctrl_sequence {s : State} (h : s.ctrl.lifecycle ≠ .leaving) (l : List QFrame) (o : Loss) :
    (l.foldl (fun s f => s.lose f o) s).ctrl = s.ctrl ∧
      (l.foldl (fun s f => s.lose f o) s).cap.sequence = s.cap.sequence := by
  induction l generalizing s with
  | nil => exact ⟨rfl, rfl⟩
  | cons f rest ih =>
    obtain ⟨hctrl, hseq⟩ := State.lose_ctrl_sequence h f o
    obtain ⟨hctrl', hseq'⟩ := ih (by rw [hctrl]; exact h)
    exact ⟨hctrl'.trans hctrl, hseq'.trans hseq⟩

theorem State.flushLink_ctrl_sequence {s : State} (h : s.ctrl.lifecycle ≠ .leaving) :
    s.flushLink.ctrl = s.ctrl ∧ s.flushLink.cap.sequence = s.cap.sequence := by
  obtain ⟨hctrl, hseq⟩ := State.foldl_lose_ctrl_sequence (s := s.withLink s.link.flushed) h s.link.queue .withdrawn
  rw [State.flushLink_eq]
  cases s.link.flight with
  | none => exact ⟨hctrl, hseq⟩
  | some fl =>
    simp only
    split
    · exact ⟨hctrl, hseq⟩
    · obtain ⟨hctrl', hseq'⟩ := State.lose_ctrl_sequence (by rw [hctrl]; exact h) fl.frame .failed
      exact ⟨hctrl'.trans hctrl, hseq'.trans hseq⟩

/-- R149: nothing waits in the queue after a flush, and nothing is in flight but what was on the wire. -/
theorem State.flushLink_gone {s : State} (h : s.link.sending = false) :
    s.flushLink.link.queue = [] ∧ s.flushLink.link.flight = none := by
  have hflushed : s.link.flushed.queue = [] ∧ s.link.flushed.flight = none :=
    by
    simp [LinkUnit.flushed_of_silent h]
  have hgone : ∀ l : LinkUnit, s.link.flushed.Shrunk l → l.queue = [] ∧ l.flight = none := fun l hl => by
    obtain ⟨hqueue, hflight, -⟩ := hl
    rw [hflushed.1, List.sublist_nil] at hqueue
    rw [hflushed.2] at hflight
    exact ⟨hqueue, by simpa using hflight⟩
  have hfold := State.foldl_lose_shrunk (s.withLink s.link.flushed) s.link.queue .withdrawn
  rw [State.flushLink_eq]
  cases s.link.flight with
  | none => exact hgone _ hfold
  | some fl =>
    simp only
    split
    · exact hgone _ hfold
    · exact hgone _ (hfold.trans (State.lose_shrunk _ _ _))

/-- The state with the monitor at WARNING. -/
def State.warned (s : State) : State := { s with ctrl := { s.ctrl with monitor := .warning } }

/-- R174: a warning in JOINED. -/
theorem State.supplyWarning_of_joined {s : State} (hhold : s.ctrl.hold = none) (hm : s.ctrl.monitor = .normal)
    (hl : s.ctrl.lifecycle = .joined) (hc : ∀ fl, s.link.flight = some fl → fl.frame.owner ≠ .controller) :
    s.supplyWarning = (s.warned.leftJoined .leaving).withLink (s.link.flushed.enqueue .controller (.leave 1)) := by
  have hroom : (s.warned.leftJoined .leaving).link.count < Config.queueSize := by
    simp only [State.leftJoined_link, LinkUnit.count, LinkUnit.flushed, List.length_nil, Config.queueSize]
    grind
  have hleave : s.supplyWarning = s.warned.leave := by
    simp [State.supplyWarning, State.released, hhold, hm, hl, State.warned]
  rw [hleave, State.leave, State.dropAll_eq_leftJoined (by exact fun _ => hc), State.offer_of_room rfl hroom]
  rfl

/-! ### The identity conflict -/

theorem LinkUnit.callOnWire_of_silent {l : LinkUnit} (h : l.sending = false) (o : Owner) : l.callOnWire o = false := by
  unfold LinkUnit.sending at h
  cases hf : l.flight <;> simp_all [LinkUnit.callOnWire]

theorem LinkUnit.any_dropped_of_silent {l : LinkUnit} (h : l.sending = false) (p : QFrame → Bool) :
    l.dropped.any p = l.frames.any p := by
  unfold LinkUnit.sending at h
  rw [LinkUnit.any_dropped]
  cases hf : l.flight <;> simp_all [LinkUnit.frames, Bool.or_comm]

section
variable {s : State}

theorem State.conflict_of_joined (h : s.ctrl.lifecycle = .joined) : s.conflict = s.leftJoined .muted := by
  rw [← State.dropAll_eq_leftJoined (by simp)]
  simp [State.conflict, h]

theorem State.conflict_of_leaving (h : s.ctrl.lifecycle = .leaving) :
    s.conflict = ({ s with ctrl := { s.ctrl with lifecycle := .muted } } : State).flushLink := by
  simp [State.conflict, h]

theorem State.conflict_of_silent (h : s.ctrl.lifecycle = .listening ∨ s.ctrl.lifecycle = .withdrawn) :
    s.conflict = { s with ctrl := { s.ctrl with lifecycle := .muted, listenTimer := none } } := by
  rcases h with h | h <;> simp [State.conflict, h]

theorem State.conflict_of_muted (h : s.ctrl.lifecycle = .muted) : s.conflict = s := by
  simp [State.conflict, h]

/-- R177: a station whose blocks run is muted, in whatever state; what its conflict leaves alone. -/
theorem State.conflict_muted (h : s.running = true) : s.conflict.ctrl.lifecycle = .muted ∧
    s.conflict.cap.sequence = s.cap.sequence ∧ s.conflict.hist.rings = s.hist.rings ∧ s.conflict.time = s.time ∧
    s.conflict.chans = s.chans ∧ s.conflict.pins = s.pins ∧ s.conflict.image = s.image ∧
    s.conflict.pending = s.pending := by
  cases hl : s.ctrl.lifecycle
  case loading | halted => simp [State.running, hl] at h
  case joined => rw [State.conflict_of_joined hl]; exact ⟨rfl, rfl, rfl, rfl, rfl, rfl, rfl, rfl⟩
  case leaving =>
    rw [State.conflict_of_leaving hl]
    obtain ⟨hctrl, hseq⟩ := State.flushLink_ctrl_sequence
      (s := { s with ctrl := { s.ctrl with lifecycle := .muted } }) (by simp)
    exact ⟨by rw [hctrl], hseq, by simp, by simp, by simp, by simp, by simp, by simp⟩
  case listening => rw [State.conflict_of_silent (.inl hl)]; exact ⟨rfl, rfl, rfl, rfl, rfl, rfl, rfl, rfl⟩
  case withdrawn => rw [State.conflict_of_silent (.inr hl)]; exact ⟨rfl, rfl, rfl, rfl, rfl, rfl, rfl, rfl⟩
  case muted => rw [State.conflict_of_muted hl]; exact ⟨hl, rfl, rfl, rfl, rfl, rfl, rfl, rfl⟩

end

end Sys2Proof.Machine

namespace Sys2Proof

-- one declaration after the other: fewer threads at a time
set_option Elab.async false

open Machine

/-- Settles O16: the blocks drop what they hold, and the LEAVE is the one frame that waits. -/
theorem warningLeavesJoined : Obligations.WarningLeavesJoined := by
  unfold Obligations.WarningLeavesJoined
  intro dt s hhold hmonitor hl hleave hlines
  have hcontroller : ∀ fl, (s.elapse dt).link.flight = some fl → fl.frame.owner ≠ .controller := fun fl hf ho => by
    rw [State.elapse_flight] at hf
    simp [State.leaveSound, hl, LinkUnit.frames, hf, ho] at hleave
  have hwire : ∀ o, (s.elapse dt).link.callOnWire o = s.link.callOnWire o := by simp [LinkUnit.callOnWire]
  obtain ⟨-, hfault, hblocked⟩ := s.linesSound_iff.mp hlines
  have hleft := State.supplyWarning_of_joined (s := s.elapse dt) (by simpa using hhold) (by simpa using hmonitor)
    (by simpa using hl) hcontroller
  have hsettle := State.leftJoined_settle (s := (s.elapse dt).warned) (l := .leaving)
    (t := ((s.elapse dt).warned.leftJoined .leaving).withLink ((s.elapse dt).link.flushed.enqueue .controller (.leave 1)))
    (by simpa [State.warned] using hblocked) rfl rfl rfl rfl (by simp)
  refine ⟨_, exec_eq_effect _ _, ?_⟩
  simp only [Instr.elapsed, effect]
  rw [hleft, hsettle]
  refine ⟨?_, ?_, ?_, ?_, fun k => ?_, ?_, ?_, ?_, ?_, ?_, ?_, ?_⟩
  · have hsame : (((s.elapse dt).warned.leftJoined .leaving).withLink
        ((s.elapse dt).link.flushed.enqueue .controller (.leave 1))).faultHolds = s.faultHolds :=
      State.faultHolds_of_same (by simp [State.warned]) (by simp [State.warned]) (by simp [hl]) (by simp [State.warned])
    rw [hsame, ← hfault]
    simp [State.warned]
  · simp [State.warned]
  · simp [State.warned]
  · simp only [State.withLink, LinkUnit.enqueue, LinkUnit.flushed, State.elapse_nextAge, State.elapse_flight]
    cases s.link.flight <;> rfl
  · simpa [State.warned, hwire] using (s.elapse dt).warned.leftJoined_term .leaving k
  · simp only [State.withLink, State.leftJoined_req, LinkUnit.any_dropped, State.warned, State.elapse_queue,
      State.elapse_flight, State.elapse_req]
    congr 2
    funext r
    cases s.link.flight <;> simp
  · simp only [State.withLink, State.leftJoined_trig, State.warned, State.elapse_trig]
  all_goals simp [State.warned]

/-- Settles O18: the conflict takes each lifecycle state to MUTED its own way, and from JOINED and LEAVING with a flush. -/
theorem identityConflictMutes : Obligations.IdentityConflictMutes := by
  unfold Obligations.IdentityConflictMutes
  intro dt bytes edge f s hd hown he
  obtain ⟨hreceiving, -⟩ := State.frameEnds_eq_some.mp he
  obtain ⟨-, hrunning, hsending⟩ := State.receiving_eq_some.mp hreceiving
  have hexec : exec (f.command dt bytes edge) s = .next (s.elapse dt).endReception.conflict.settle := by
    rw [exec_eq_effect, Frame.command_elapsed, effect_command hd he, if_pos (by simpa using hown)]
  refine ⟨_, hexec, ?_⟩
  obtain ⟨hmuted, hseq, hrings, htime, hchans, hpins, himage, hpending⟩ :=
    State.conflict_muted (s := (s.elapse dt).endReception) hrunning
  have hsilent : (s.elapse dt).endReception.link.sending = false := hsending
  have hlifecycle : (s.elapse dt).endReception.ctrl.lifecycle = s.ctrl.lifecycle := by simp
  refine ⟨hmuted, by simp [State.syncHolds, hmuted], by simp [State.faultHolds, hmuted], htime, by simp [hchans],
    by simp [hpins], by simp [himage], by simp [hrings], by simp [hseq], by simp [hpending], fun hj hlines => ?_,
    fun hj => ?_, fun hj => ?_, fun hj => ?_⟩
  · obtain ⟨-, -, hblocked⟩ := s.linesSound_iff.mp hlines
    have hsettle := State.leftJoined_settle (s := (s.elapse dt).endReception) (l := .muted)
      (t := (s.elapse dt).endReception.leftJoined .muted) (by simpa using hblocked) rfl rfl rfl rfl (by simp)
    rw [State.conflict_of_joined (hlifecycle.trans hj), hsettle]
    refine ⟨?_, ?_, ?_, ?_, fun k => ?_, ?_, ?_⟩
    · simp [State.faultHolds]
    · simp only [State.leftJoined_link]
      rw [LinkUnit.flushed_of_silent hsilent]
      rfl
    · simp
    · simp
    · simpa [LinkUnit.callOnWire_of_silent (l := (s.elapse dt).link.ended) hsilent] using (s.elapse dt).endReception.leftJoined_term .muted k
    · simp only [State.leftJoined_trig, State.endReception_trig, State.elapse_trig]
    · simp only [State.leftJoined_req, LinkUnit.any_dropped_of_silent hsilent]
      simp [LinkUnit.frames]
  · rw [State.conflict_of_leaving (hlifecycle.trans hj)]
    obtain ⟨hqueue, hflight⟩ := State.flushLink_gone
      (s := { (s.elapse dt).endReception with ctrl := { s.ctrl with lifecycle := .muted } }) hsilent
    exact ⟨by simpa using hqueue, by simpa using hflight, by simp⟩
  · rw [State.conflict_of_silent (by rw [hlifecycle]; exact hj)]
    simp
  · rw [State.conflict_of_muted (hlifecycle.trans hj)]

end Sys2Proof

/-!
PROOFS. The bus as time passes: the bits anyone drives, the idle count and the start edges; and the bit of the own frame that
begins now, with the arbitration it may lose and the bit error it may meet.
-/

namespace Sys2Proof.Machine

-- one declaration after the other: fewer threads at a time
set_option Elab.async false

/-! ### Bits -/

/-- R133: the dominant bits of a frame: every start bit, and the 0s of its bytes. -/
theorem dominantBit_iff (bytes : List Byte) (k : Nat) : dominantBit bytes k = true ↔ k < 10 * bytes.length ∧
    (k % 10 = 0 ∨ (k % 10 ≤ 8 ∧ (bytes.getD (k / 10) 0).getLsbD (8 - k % 10) = false)) := by
  unfold dominantBit Config.byteBits
  rw [List.getD_eq_getElem?_getD]
  by_cases hk : k / 10 < bytes.length
  · have hlt : k < 10 * bytes.length := by omega
    rw [List.getElem?_eq_getElem hk]
    simp only [hlt, true_and, Option.getD_some]
    have hmod : k % 10 < 10 := Nat.mod_lt _ (by omega)
    generalize k % 10 = j at hmod
    interval_cases j <;> simp
  · have hge : ¬ k < 10 * bytes.length := by omega
    rw [List.getElem?_eq_none (by omega)]
    simp [hge]

/-! ### The idle count over a lapse -/

/-- R133: anyone drives the bus dominant in the bit time `o` from now on: another station, the own frame on the wire or the
own error mark. -/
def State.Drives (s : State) (dt : Lapse) (o : Nat) : Prop :=
  o ∈ dt.dominant ∨
    (∃ fl edge k, s.link.flight = some fl ∧ fl.onWire = true ∧ s.link.receiver = .taking edge ∧
      dominantBit fl.bytes k = true ∧ s.time.localTime + BitVec.ofNat 48 o = edge + BitVec.ofNat 48 k) ∨
    ∃ m k, s.link.mark = some m ∧ k < 12 ∧ s.time.localTime + BitVec.ofNat 48 o = m + BitVec.ofNat 48 k

/-- A distance from local time names one time. -/
theorem sub_toNat_eq_iff {now t : Time} {o : Nat} (ho : o < 2 ^ 48) : (t - now).toNat = o ↔ now + BitVec.ofNat 48 o = t := by
  constructor
  · rintro rfl
    rw [BitVec.ofNat_toNat, BitVec.setWidth_eq]
    exact add_sub_cancel now t
  · rintro rfl
    rw [add_sub_cancel_left, BitVec.toNat_ofNat, Nat.mod_eq_of_lt ho]

theorem LinkUnit.onWire?_eq_some {l : LinkUnit} {fl : Flight} :
    l.onWire? = some fl ↔ l.flight = some fl ∧ fl.onWire = true := by
  unfold LinkUnit.onWire?
  cases hf : l.flight with
  | none => simp
  | some g => cases hw : g.onWire <;> simp <;> grind

theorem State.mem_dominantIn_iff {s : State} {dt : Lapse} {o : Nat} (ho : o < 2 ^ 48) :
    o ∈ s.dominantIn dt ↔ s.Drives dt o := by
  rw [State.mem_dominantIn]
  refine or_congr_right ⟨?_, ?_⟩
  · rintro ⟨t, ht, hto⟩
    rw [sub_toNat_eq_iff ho] at hto
    rcases LinkUnit.mem_ownDominant.mp ht with ⟨fl, edge, k, hfl, hr, -, hdom, rfl⟩ | ⟨m, k, hm, hk, rfl⟩
    · obtain ⟨hflight, hwire⟩ := LinkUnit.onWire?_eq_some.mp hfl
      exact .inl ⟨fl, edge, k, hflight, hwire, hr, hdom, hto⟩
    · exact .inr ⟨m, k, hm, hk, hto⟩
  · rintro (⟨fl, edge, k, hflight, hwire, hr, hdom, hto⟩ | ⟨m, k, hm, hk, hto⟩)
    · exact ⟨addTicks edge k, LinkUnit.mem_ownDominant.mpr (.inl ⟨fl, edge, k,
        LinkUnit.onWire?_eq_some.mpr ⟨hflight, hwire⟩, hr, ((dominantBit_iff _ _).mp hdom).1, hdom, rfl⟩),
        (sub_toNat_eq_iff ho).mpr hto⟩
    · exact ⟨addTicks m k, LinkUnit.mem_ownDominant.mpr (.inr ⟨m, k, hm, hk, rfl⟩), (sub_toNat_eq_iff ho).mpr hto⟩

/-- R133: the bus has been recessive for twelve bit times before the bit time `k`. -/
theorem twelve_le_idleAfter_iff (count : Nat) (dominant : List Nat) (k : Nat) : 12 ≤ idleAfter count dominant k ↔
    (∀ o ∈ dominant, o < k → o + 12 < k) ∧ ((∀ o ∈ dominant, ¬ o < k) → 12 ≤ count + k) := by
  by_cases hnone : ∀ o ∈ dominant, ¬ o < k
  · rw [idleAfter_recessive fun o ho => Nat.not_lt.mp (hnone o ho)]
    exact ⟨fun h => ⟨fun o ho hk => absurd hk (hnone o ho), fun _ => h⟩, fun h => h.2 hnone⟩
  · have hsome : ((dominant.filter fun k' => decide (k' < k)).max?).isSome = true := by
      rw [Option.isSome_iff_ne_none, ne_eq, List.max?_eq_none_iff]
      simpa using hnone
    obtain ⟨last, hlast⟩ := Option.isSome_iff_exists.mp hsome
    obtain ⟨hmem, hmax⟩ := List.max?_eq_some_iff.mp hlast
    obtain ⟨hdom, hlt⟩ := List.mem_filter.mp hmem
    have hlt' : last < k := by simpa using hlt
    have hle : ∀ o ∈ dominant, o < k → o ≤ last := fun o ho hk => hmax o (by simpa using ⟨ho, hk⟩)
    rw [idleAfter_dominant hdom hlt' hle]
    constructor
    · exact fun h => ⟨fun o ho hk => by have := hle o ho hk; omega, fun hno => absurd hlt' (hno last hdom)⟩
    · intro h
      have := h.1 last hdom hlt'
      omega

theorem State.elapse_link_running {s : State} (dt : Lapse) (h : s.running = true) : (s.elapse dt).link = s.watchBus dt := by
  have hhold : s.ctrl.hold = none := by
    simp only [State.running, State.released, Bool.and_eq_true, Option.isNone_iff_eq_none] at h
    exact h.1
  rw [State.elapse_released dt hhold]

theorem State.elapse_link_stopped {s : State} (dt : Lapse) (h : s.running = false) : (s.elapse dt).link = s.link := by
  cases hhold : s.ctrl.hold with
  | some x => rw [State.elapse_held dt hhold]
  | none =>
    rw [State.elapse_released dt hhold]
    exact State.watchBus_stopped dt h

/-- While the receiver follows a frame a lapse moves the idle count alone. -/
theorem State.elapse_link_taking {s : State} (dt : Lapse) {edge : Time} (h : s.link.receiver = .taking edge) :
    (s.elapse dt).link = { s.link with idleCount := (s.elapse dt).link.idleCount } := by
  cases hr : s.running with
  | false => rw [State.elapse_link_stopped dt hr]
  | true =>
    rw [State.elapse_link_running dt hr]
    cases hc : s.link.idleCount with
    | none =>
      have hsame : s.watchBus dt = s.link := by simp [State.watchBus, hc]
      rw [hsame]
    | some count => rw [State.watchBus_running dt hr hc, State.startBit_taking dt count h]; rfl

/-- R137: the twelve bit times from a time on. -/
theorem in_mark_iff (m now : Time) : (now - m).toNat < 12 ↔ later m now = false ∧ later (m + 12) now = true := by
  simp only [later, decide_eq_false_iff_not, decide_eq_true_eq]
  bv_omega

/-! ### The bit of the own frame that begins now -/

section
variable {s : State} {f : QFrame} {sent : List Byte} {finishing : Bool} {edge : Time}

theorem State.bitNow_eq (hf : s.link.flight = some ⟨f, sent, true, finishing⟩) (hr : s.link.receiver = .taking edge) :
    s.bitNow = if (s.time.localTime - edge).toNat < 10 * sent.length then
      some (⟨f, sent, true, finishing⟩, (s.time.localTime - edge).toNat) else none := by
  have hwire : s.link.onWire? = some ⟨f, sent, true, finishing⟩ := LinkUnit.onWire?_eq_some.mpr ⟨hf, rfl⟩
  by_cases hlt : (s.time.localTime - edge).toNat < 10 * sent.length <;>
    simp only [State.bitNow, hwire, hr, Config.byteBits, hlt, if_true, if_false]

theorem State.contested_eq (hf : s.link.flight = some ⟨f, sent, true, finishing⟩) (hr : s.link.receiver = .taking edge) :
    s.contested = if (s.time.localTime - edge).toNat < 10 ∧ (s.time.localTime - edge).toNat < 10 * sent.length ∧
      dominantBit sent (s.time.localTime - edge).toNat = false then some ⟨f, sent, true, finishing⟩ else none := by
  unfold State.contested
  rw [State.bitNow_eq hf hr]
  simp only [Config.byteBits]
  generalize (s.time.localTime - edge).toNat = k
  by_cases hlen : k < 10 * sent.length <;> by_cases hk : k < 10 <;> cases hd : dominantBit sent k <;> simp [hlen, hk, hd]

theorem State.erring_eq (hf : s.link.flight = some ⟨f, sent, true, finishing⟩) (hr : s.link.receiver = .taking edge) :
    s.erring = if (s.time.localTime - edge).toNat < 10 * sent.length ∧ ((s.time.localTime - edge).toNat < 10 →
      dominantBit sent (s.time.localTime - edge).toNat = true) then
      some (⟨f, sent, true, finishing⟩, dominantBit sent (s.time.localTime - edge).toNat) else none := by
  unfold State.erring
  rw [State.bitNow_eq hf hr]
  simp only [Config.byteBits]
  generalize (s.time.localTime - edge).toNat = k
  by_cases hlen : k < 10 * sent.length <;> by_cases hk : k < 10 <;> cases hd : dominantBit sent k <;> simp [hlen, hk, hd]

end

theorem State.elapse_receiver_taking {s : State} (dt : Lapse) {edge : Time} (h : s.link.receiver = .taking edge) :
    (s.elapse dt).link.receiver = .taking edge := by
  rw [State.elapse_link_taking dt h, h]

/-- R136: with no own frame on the wire there is no bit of it to contest. -/
theorem State.contested_of_silent {s : State} (h : ∀ fl, s.link.flight = some fl → fl.onWire = false) :
    s.contested = none := by
  have hwire : s.link.onWire? = none := by
    cases hw : s.link.onWire? with
    | none => rfl
    | some fl =>
      obtain ⟨hfl, htrue⟩ := LinkUnit.onWire?_eq_some.mp hw
      rw [h fl hfl] at htrue
      cases htrue
  simp [State.contested, State.bitNow, hwire]

theorem State.lostArbitration_of_none {s : State} (h : s.contested = none) : s.lostArbitration = s := by
  simp [State.lostArbitration, h]

/-! ### Start edges over a lapse -/

/-- R139: another station's start bit begins a frame in the bit time `k`: the bus has been idle before it. -/
def State.Begins (s : State) (dt : Lapse) (count k : Nat) : Prop :=
  k ∈ dt.dominant ∧ k < dt.ticks ∧ (∀ o, o < k → s.Drives dt o → o + 12 < k) ∧
    ((∀ o, o < k → ¬ s.Drives dt o) → 12 ≤ count + k)

theorem State.begins_iff {s : State} {dt : Lapse} (h : dt.ticks < 2 ^ 47) (count k : Nat) : s.Begins dt count k ↔
    k ∈ dt.dominant ∧ k < dt.ticks ∧ 12 ≤ idleAfter count (s.dominantIn dt) k := by
  unfold State.Begins
  rw [twelve_le_idleAfter_iff]
  refine and_congr_right fun _ => and_congr_right fun hk => ?_
  have hdrives : ∀ o, o < k → (o ∈ s.dominantIn dt ↔ s.Drives dt o) := fun o ho => State.mem_dominantIn_iff (by omega)
  refine and_congr ?_ (imp_congr ?_ Iff.rfl)
  · exact ⟨fun h o hm ho => h o ho ((hdrives o ho).mp hm), fun h o ho hd => h o ((hdrives o ho).mpr hd) ho⟩
  · exact ⟨fun h o hm ho => h o ho ((hdrives o ho).mp hm), fun h o ho hd => h o ((hdrives o ho).mpr hd) ho⟩

theorem State.startBit_eq_some_iff {s : State} {dt : Lapse} (h : dt.ticks < 2 ^ 47) (count k : Nat) :
    s.startBit dt count = some k ↔ (∀ edge, s.link.receiver ≠ .taking edge) ∧ s.Begins dt count k ∧
      ∀ j, j < k → ¬ s.Begins dt count j := by
  rw [State.startBit_eq_some, State.begins_iff h]
  refine and_congr_right fun _ => and_congr_right fun _ => ?_
  constructor
  · intro hmin j hj hb
    obtain ⟨hm, ht, hidle⟩ := (State.begins_iff h count j).mp hb
    have := hmin j hm ht hidle
    omega
  · intro hmin j hm ht hidle
    by_contra hlt
    exact hmin j (by omega) ((State.begins_iff h count j).mpr ⟨hm, ht, hidle⟩)

/-- The declined list and the reply list without what a frame stands for. -/
def State.forget (s : State) (f : QFrame) : State :=
  { s with
    cap := { s.cap with declined := s.cap.declined.filter fun t => f.owner != .declined t }
    req := { s.req with replies := s.req.replies.filter fun r => f.replyId? != some r.id } }

theorem State.forget_eq_self {s : State} {f : QFrame} (hd : ∀ tag, f.owner ≠ .declined tag)
    (hr : ∀ id, f.owner ≠ .reply id) : s.forget f = s := by
  have hid : f.replyId? = none := by
    unfold QFrame.replyId?
    cases ho : f.owner <;> simp
    exact hr _ ho
  have hdeclined : (s.cap.declined.filter fun t => f.owner != .declined t) = s.cap.declined := by simp [hd]
  have hreplies : (s.req.replies.filter fun r => f.replyId? != some r.id) = s.req.replies := by simp [hid]
  rw [State.forget, hdeclined, hreplies]

theorem State.undecline_eq_forget {s : State} {f : QFrame} {tag : Tag} (h : f.owner = .declined tag) :
    s.undecline tag = s.forget f := by
  have hreplies : (s.req.replies.filter fun r => f.replyId? != some r.id) = s.req.replies := by
    simp [QFrame.replyId?, h]
  rw [State.forget, hreplies, State.undecline]
  have hsame : (fun t => decide (t ≠ tag)) = fun t => f.owner != .declined t := by
    funext t
    by_cases ht : t = tag <;> grind
  rw [hsame]

theorem State.dropReply_eq_forget {s : State} {f : QFrame} {id : Nat} (h : f.owner = .reply id) :
    s.dropReply id = s.forget f := by
  have hdeclined : (s.cap.declined.filter fun t => f.owner != .declined t) = s.cap.declined := by simp [h]
  have hid : f.replyId? = some id := by simp [QFrame.replyId?, h]
  rw [State.forget, hdeclined, State.dropReply, hid]
  have hsame : (fun r : ReplyEntry => r.id != id) = fun r => some id != some r.id := by
    funext r
    by_cases hr : r.id = id <;> grind
  rw [hsame]

/-- R10, R162: what a withdrawn frame says. -/
theorem State.lose_withdrawn_eq (s : State) (f : QFrame) : s.lose f .withdrawn = s.forget f := by
  rw [State.lose_withdrawn]
  cases ho : f.owner with
  | declined tag => exact State.undecline_eq_forget ho
  | reply id => exact State.dropReply_eq_forget ho
  | entry uid | time | controller => exact (State.forget_eq_self (by simp [ho]) (by simp [ho])).symm

end Sys2Proof.Machine

namespace Sys2Proof

-- one declaration after the other: fewer threads at a time
set_option Elab.async false

open Machine

/-- Settles O36: the frame goes back, or is withdrawn, where its bit can be contested. -/
theorem lostArbitrationReturnsFrame : Obligations.LostArbitrationReturnsFrame := by
  unfold Obligations.LostArbitrationReturnsFrame
  refine ⟨?_, fun dt s hsilent => ?_⟩
  · intro dt s f sent finishing edge hf hr k
    have hf' : (s.elapse dt).link.flight = some ⟨f, sent, true, finishing⟩ := by simpa using hf
    have hcontested := State.contested_eq hf' (State.elapse_receiver_taking dt hr)
    refine ⟨fun hk hlen hdom hfin => ?_, fun hk hlen hdom hfin => ?_, fun h => ?_⟩
    · rw [if_pos ⟨hk, hlen, hdom⟩] at hcontested
      rw [exec_eq_effect]
      simp only [Instr.elapsed, effect, State.lostArbitration, hcontested, hfin, Bool.false_eq_true, if_false,
        State.withLink, State.elapse_queue]
    · rw [if_pos ⟨hk, hlen, hdom⟩] at hcontested
      rw [exec_eq_effect]
      simp only [Instr.elapsed, effect, State.lostArbitration, hcontested, hfin, if_true, State.lose_withdrawn_eq,
        State.forget, State.withLink, State.elapse_cap, State.elapse_req]
    · rw [if_neg (by rintro ⟨hk, -, hdom⟩; rcases h with h | h <;> grind)] at hcontested
      rw [exec_eq_effect]
      simp only [Instr.elapsed, effect, State.lostArbitration_of_none hcontested]
  · rw [exec_eq_effect]
    simp only [Instr.elapsed, effect]
    rw [State.lostArbitration_of_none (State.contested_of_silent (by simpa using hsilent))]

/-- Settles O37: before the fourth attempt a bit error changes the frame's wait, the receiver and the mark. -/
theorem bitErrorAwaitsRetry : Obligations.BitErrorAwaitsRetry := by
  unfold Obligations.BitErrorAwaitsRetry
  refine ⟨?_, fun s => by rw [State.marking_iff]; simp only [in_mark_iff]⟩
  intro dt s f sent edge hf hr k
  have hf' : (s.elapse dt).link.flight = some ⟨f, sent, true, false⟩ := by simpa using hf
  have herring := State.erring_eq hf' (State.elapse_receiver_taking dt hr)
  refine ⟨fun hattempts hlen hdom => ?_, fun h => ?_⟩
  · rw [if_pos ⟨hlen, hdom⟩] at herring
    have hlimit : ¬ Config.attemptLimit ≤ f.attempts + 1 := by simp [Config.attemptLimit]; omega
    rw [exec_eq_effect]
    simp only [Instr.elapsed, effect, State.bitError, herring, hlimit, Bool.false_eq_true, if_false, State.withLink]
    rw [State.elapse_link_taking dt hr]
    rfl
  · rw [if_neg (by rintro ⟨hlen, hdom⟩; rcases h with h | h <;> grind)] at herring
    rw [exec_eq_effect]
    simp only [Instr.elapsed, effect, State.bitError, herring]

/-- Settles O41: the idle count follows the bits anyone drives, and the receiver the idle count. -/
theorem quietEndIdleAndFramingError : Obligations.QuietEndIdleAndFramingError := by
  unfold Obligations.QuietEndIdleAndFramingError
  refine ⟨dominantBit_iff, LinkUnit.busIdle_iff, ?_⟩
  intro dt s now drives begins
  have hdrives : drives = s.Drives dt := rfl
  have hbegins : ∀ k count, begins k count ↔ s.Begins dt count k := fun _ _ => Iff.rfl
  clear_value drives begins
  subst hdrives
  simp only [hbegins]
  refine ⟨fun quietEnd hq hrun hlater => ?_, fun count hrun hcount hticks => ?_, State.elapse_link_stopped dt,
    fun hrun hwait hidle => ?_, fun h => ?_, fun edge hrun hr hsilent kind => ?_⟩
  · have hdue : (s.elapse dt).quietDue = true := by
      simp [State.quietDue, hq, hrun, State.reached, hlater]
    rw [exec_eq_effect]
    simp only [Instr.elapsed, effect, State.quietEnd, hdue, if_true, State.withLink]
  · have hlink : (s.elapse dt).link = LinkUnit.hear
        { s.link with idleCount := some (idleAfter count (s.dominantIn dt) dt.ticks) }
        ((s.startBit dt count).map (addTicks s.time.localTime)) := by
      rw [State.elapse_link_running dt hrun, State.watchBus_running dt hrun hcount]
    have hidle : (s.elapse dt).link.idleCount = some (idleAfter count (s.dominantIn dt) dt.ticks) := by
      rw [hlink, LinkUnit.hear_idleCount]
    have hmem : ∀ o, o < dt.ticks → (o ∈ s.dominantIn dt ↔ s.Drives dt o) := fun o ho =>
      State.mem_dominantIn_iff (by omega)
    refine ⟨fun hnone => ?_, fun last hlt hlast hafter => ?_, fun k hr hk hfirst => ?_, fun h => ?_⟩
    · rw [hidle, idleAfter_recessive fun k hk => ?_]
      by_contra hlt
      exact hnone k (by omega) ((hmem k (by omega)).mp hk)
    · rw [hidle, idleAfter_dominant ((hmem last hlt).mpr hlast) hlt fun k hk hkt => ?_]
      by_contra hlater
      exact hafter k (by omega) hkt ((hmem k hkt).mp hk)
    · rw [hidle, hlink, (State.startBit_eq_some_iff hticks count k).mpr ⟨hr, hk, hfirst⟩]
      rfl
    · have hnone : s.startBit dt count = none := by
        cases hbit : s.startBit dt count with
        | none => rfl
        | some k =>
          obtain ⟨hr, hk, -⟩ := (State.startBit_eq_some_iff hticks count k).mp hbit
          rcases h with ⟨edge, hedge⟩ | hno
          · exact absurd hedge (hr edge)
          · exact absurd hk (hno k)
      rw [hidle, hlink, hnone]
      rfl
  · have hdue : (s.elapse dt).idleDue = true := by simp [State.idleDue, hrun, hwait, hidle]
    rw [exec_eq_effect]
    simp only [Instr.elapsed, effect, State.becomeIdle, hdue, if_true, State.withLink]
  · have hdue : (s.elapse dt).idleDue = false := by
      rcases h with h | h <;> simp [State.idleDue, h]
    rw [exec_eq_effect]
    simp only [Instr.elapsed, effect, State.becomeIdle, hdue, Bool.false_eq_true, if_false]
  · have hreceiving : (s.elapse dt).receiving = some edge :=
      State.receiving_eq_some.mpr ⟨hr, by simpa using hrun, by
        rw [State.elapse_sending]
        unfold LinkUnit.sending
        cases hf : s.link.flight <;> simp_all⟩
    rw [exec_eq_effect]
    simp only [Instr.elapsed, effect, State.framingError, hreceiving, Option.isSome_some, if_true, State.withLink]
    cases kind <;> simp [LinkUnit.idleAtLoss]

end Sys2Proof

/-!
PROOFS. What a frame's outcome makes of its owner: the entry, the term, the lists and the station controller, for a frame
that is lost and for one that is sent.
-/

namespace Sys2Proof.Machine

-- one declaration after the other: fewer threads at a time
set_option Elab.async false

/-! ### A CALL that is lost -/

theorem State.entry?_eq_none {s : State} {uid : Nat} : s.entry? uid = none ↔ ∀ e ∈ s.cap.table, e.uid ≠ uid := by
  simp [State.entry?]

/-- R38: the term whose fire is lost with an entry's CALL. -/
def State.callTerm (s : State) (uid : Nat) : Option TermNo := ((s.entry? uid).bind Entry.origin).bind Origin.term

/-- The terms with the fire of one of them lost. -/
def Trigger.losing (g : Trigger) (k : Option TermNo) : Trigger :=
  { g with terms := Four.build fun i =>
      if k = some i then { g.terms.get i with fireLost := true } else g.terms.get i }

theorem Trigger.losing_none (g : Trigger) : g.losing none = g := by
  have hterms : (Four.build fun i => if (none : Option TermNo) = some i then
      { g.terms.get i with fireLost := true } else g.terms.get i) = g.terms := Four.ext_get fun i => by simp
  rw [Trigger.losing, hterms]

theorem State.setFireLost_eq (s : State) (k : TermNo) : s.setFireLost k = { s with trig := s.trig.losing (some k) } := by
  have hterms : s.trig.terms.set k { s.trig.terms.get k with fireLost := true } = (Four.build fun i =>
      if some k = some i then { s.trig.terms.get i with fireLost := true } else s.trig.terms.get i) :=
    Four.ext_get fun i => by
      by_cases hi : i = k
      · simp [hi]
      · simp [Four.get_set_of_ne _ hi, Ne.symm hi]
  rw [State.setFireLost, State.onTerm, hterms]
  rfl

/-- R38: a CALL that is lost takes its entry and its term's fire with it. -/
theorem State.callLost_eq (s : State) (uid : Nat) : s.callLost uid = { s with
    cap := { s.cap with table := s.cap.table.filter fun e => e.uid != uid }
    link := if s.entry? uid = none then s.link else s.link.withdraw (.entry uid)
    trig := s.trig.losing (s.callTerm uid) } := by
  unfold State.callLost State.callTerm
  cases he : s.entry? uid with
  | none =>
    have htable : (s.cap.table.filter fun e => e.uid != uid) = s.cap.table := by
      simpa using State.entry?_eq_none.mp he
    simp only [Option.bind_none, Trigger.losing_none, if_true, htable]
  | some e =>
    obtain ⟨_, _, _, _, _, _, _, _, origin⟩ := e
    rcases origin with _ | ⟨_, _, _, _, _, _, _ | term⟩
    · simp [Trigger.losing_none, State.freeEntry]
    · simp [Trigger.losing_none, State.freeEntry]
    · simp [State.setFireLost_eq, State.freeEntry]

/-! ### What a loss and a sent frame touch -/

/-- R175: the outcome of the LEAVE touches the station controller alone. -/
theorem State.leaveEnded_eq (s : State) : s.leaveEnded = { s with ctrl := s.leaveEnded.ctrl } := by
  unfold State.leaveEnded
  split <;> rfl

/-- R145: a frame's loss touches the table, the queue, the terms and the station controller, and the lists the frame stands
in. -/
theorem State.lose_eq (s : State) (f : QFrame) (o : Loss) : s.lose f o = { s.forget f with
    cap := { (s.forget f).cap with table := (s.lose f o).cap.table }
    link := { s.link with queue := (s.lose f o).link.queue }
    trig := (s.lose f o).trig
    ctrl := (s.lose f o).ctrl } := by
  cases ho : f.owner with
  | declined tag =>
    have h : s.lose f o = s.undecline tag := by simp [State.lose, ho]
    rw [h, State.undecline_eq_forget ho]
    rfl
  | reply id =>
    have h : s.lose f o = s.dropReply id := by simp [State.lose, ho]
    rw [h, State.dropReply_eq_forget ho]
    rfl
  | time =>
    have h : s.lose f o = s := by simp [State.lose, ho]
    rw [h, State.forget_eq_self (by simp [ho]) (by simp [ho])]
  | controller =>
    rw [State.forget_eq_self (by simp [ho]) (by simp [ho])]
    have h : s.lose f o = if o = .withdrawn then s else s.leaveEnded := by simp [State.lose, ho]
    rw [h]
    split
    · rfl
    · rw [s.leaveEnded_eq]
  | entry uid =>
    rw [State.forget_eq_self (by simp [ho]) (by simp [ho])]
    unfold State.lose
    rw [ho]
    cases f.content
    case call b => simp only; split <;> [rfl; (rw [State.callLost_eq]; split <;> rfl)]
    case report b => simp only; split <;> rfl
    case close b => simp only; split <;> rfl
    all_goals rfl

theorem State.leaveEnded_ctrl (s : State) : s.leaveEnded.ctrl =
    if s.ctrl.lifecycle = .leaving then
      if s.ctrl.monitor = .warning then { s.ctrl with lifecycle := .withdrawn }
      else { s.ctrl with lifecycle := .listening, listenTimer := some (s.time.localTime + 1500000) }
    else s.ctrl := by
  unfold State.leaveEnded
  cases s.ctrl.lifecycle <;> cases s.ctrl.monitor <;> rfl

/-! ### A bit error that discards -/

/-- R137, R138, R147: the state with the own frame discarded: the receiver waits, the mark begins, and the discard counts
unless the frame was left to finish; the third in a row makes the link QUIET. -/
def State.discarding (s : State) (finishing dominant : Bool) : State :=
  let quiet : Bool := !finishing && decide (2 ≤ s.link.discards)
  { s with
    link := { s.link with
      flight := none, receiver := .waiting
      idleCount := if dominant then s.link.idleCount else some 0
      mark := some (s.time.localTime + 1)
      discards := if finishing then s.link.discards else if quiet then 0 else s.link.discards + 1
      state := if quiet then .quiet (s.time.localTime + 1000000) else s.link.state }
    req := { s.req with quietMark := s.req.quietMark || quiet } }

theorem State.bitError_discards {s : State} {f : QFrame} {sent : List Byte} {finishing dominant : Bool}
    (herring : s.erring = some (⟨f, sent, true, finishing⟩, dominant)) (hlast : finishing = true ∨ 3 ≤ f.attempts) :
    s.bitError = (s.discarding finishing dominant).lose { f with attempts := f.attempts + 1 } .failed := by
  simp only [State.bitError, herring, State.discarding]
  cases finishing
  · have hlimit : Config.attemptLimit ≤ f.attempts + 1 := by simp [Config.attemptLimit] at *; omega
    simp only [Bool.false_eq_true, if_false, hlimit, if_true, State.countDiscard, State.withLink]
    by_cases hq : 2 ≤ s.link.discards
    · have hq' : Config.discardLimit ≤ s.link.discards + 1 := by simp [Config.discardLimit]; omega
      simp only [hq', if_true, State.goQuiet, hq]
      simp [addTicks, Config.quietPeriod]
    · have hq' : ¬ Config.discardLimit ≤ s.link.discards + 1 := by simp [Config.discardLimit]; omega
      simp only [hq', if_false, hq]
      simp [addTicks]
  · simp [addTicks, State.withLink]

/-! ### A frame that is sent -/

theorem State.sentDue_eq {s : State} {f : QFrame} {sent : List Byte} {finishing : Bool} {edge : Time}
    (hf : s.link.flight = some ⟨f, sent, true, finishing⟩) (hr : s.link.receiver = .taking edge)
    (hend : later (edge + BitVec.ofNat 48 (10 * sent.length)) s.time.localTime = false) :
    s.sentDue = some ⟨f, sent, true, finishing⟩ := by
  have hwire : s.link.onWire? = some ⟨f, sent, true, finishing⟩ := LinkUnit.onWire?_eq_some.mpr ⟨hf, rfl⟩
  have hreached : s.reached (frameEnd edge sent.length) = true := by
    rw [State.reached_eq]
    simpa [frameEnd, addTicks, Config.byteBits] using hend
  simp only [State.sentDue, hwire, hr, hreached, if_true]

/-- R138: the state with the own frame sent away. -/
def State.sentAway (s : State) : State :=
  s.withLink { s.link with flight := none, discards := 0, idleCount := some 0, receiver := .waiting }

theorem State.frameSent_eq {s : State} {fl : Flight} (h : s.sentDue = some fl) :
    s.frameSent = s.sentAway.sentOutcome fl.frame := by
  simp only [State.frameSent, h, State.sentAway]

/-- R20: the REPORT of a member-only entry. -/
theorem State.sentOutcome_report {s : State} {f : QFrame} {uid : Nat} {r : ReportFrame} (ho : f.owner = .entry uid)
    (hc : f.content = .report r) (hmember : ∀ e, s.entry? uid = some e → e.origin = none) :
    s.sentOutcome f = s.onEntry uid Entry.reportSent := by
  have hreport : s.sentOutcome f = s.reportSent uid := by simp [State.sentOutcome, ho, hc]
  rw [hreport, State.reportSent]
  cases he : s.entry? uid with
  | none =>
    have hnone : (s.onEntry uid Entry.reportSent).entry? uid = none := by
      rw [State.entry?_eq_none] at he ⊢
      simp only [State.onEntry_table, List.mem_map, forall_exists_index, and_imp, forall_apply_eq_imp_iff₂]
      exact fun e hm => by rw [if_neg (he e hm)]; exact he e hm
    simp only [State.countAnswer, hnone]
  | some e =>
    have hsome : (s.onEntry uid Entry.reportSent).entry? uid = some e.reportSent :=
      State.entry?_onEntry he fun x => by unfold Entry.reportSent; split <;> rfl
    have horigin : e.reportSent.origin = none := by
      unfold Entry.reportSent; split <;> exact hmember e he
    exact State.countAnswer_of_not_open hsome _ _ fun o ho => by cases horigin.symm.trans ho

/-- R145: a sent frame touches the table, the queue and the station controller, and the lists the frame stands in. -/
theorem State.sentOutcome_eq {s : State} {f : QFrame}
    (hmember : ∀ uid r e, f.owner = .entry uid → f.content = .report r → s.entry? uid = some e → e.origin = none) :
    s.sentOutcome f = { s.forget f with
      cap := { (s.forget f).cap with table := (s.sentOutcome f).cap.table }
      link := { s.link with queue := (s.sentOutcome f).link.queue }
      ctrl := (s.sentOutcome f).ctrl } := by
  have hlost : ∀ t, s.lose f .failed = t → t.trig = s.trig → t = { s.forget f with
      cap := { (s.forget f).cap with table := t.cap.table }
      link := { s.link with queue := t.link.queue }
      ctrl := t.ctrl } := by
    rintro t rfl htrig
    conv_lhs => rw [State.lose_eq, htrig]
    rfl
  cases ho : f.owner with
  | entry uid =>
    cases hc : f.content with
    | call b =>
      have hcall : s.sentOutcome f = s.callSent uid := by simp [State.sentOutcome, ho, hc]
      rw [hcall, State.forget_eq_self (by simp [ho]) (by simp [ho])]
      rfl
    | report r =>
      rw [State.sentOutcome_report ho hc fun e he => hmember uid r e ho hc he,
        State.forget_eq_self (by simp [ho]) (by simp [ho])]
      rfl
    | close b | leave b | beacon b | reply b c =>
      exact hlost _ (by simp [State.sentOutcome, State.lose, ho, hc]) (by simp [State.sentOutcome, ho, hc])
  | declined tag | time | reply id =>
    exact hlost _ (by simp [State.sentOutcome, State.lose, ho]) (by simp [State.sentOutcome, ho])
  | controller =>
    exact hlost _ (by simp [State.sentOutcome, State.lose, ho]) (by
      simp only [State.sentOutcome, ho]
      rw [State.leaveEnded_eq])

/-- R20: an entry with its REPORT sent. -/
def Entry.withReport (e : Entry) : Entry :=
  { e with member := if e.member = .resolved then .reported else e.member }

/-- R20: the state with the REPORT of an entry sent. -/
def State.reported (s : State) (e : Entry) : State :=
  { s with cap := { s.cap with table := s.cap.table.map fun x => if x = e then e.withReport else x } }

theorem State.reported_eq {s : State} (hs : s.uidsSound = true) {e : Entry} (he : e ∈ s.cap.table) :
    s.reported e = s.onEntry e.uid Entry.reportSent := by
  have htable : (s.cap.table.map fun x => if x = e then e.withReport else x) =
      s.cap.table.map fun x => if x = e then x.reportSent else x := by
    refine List.map_congr_left fun x _ => ?_
    by_cases hx : x = e
    · by_cases hm : e.member = .resolved <;> simp [hx, Entry.reportSent, Entry.withReport, hm]
    · simp [hx]
  rw [State.onEntry, State.map_uid hs he, State.reported, htable]

theorem State.reported_entry {s : State} (hs : s.uidsSound = true) {e : Entry} (he : e ∈ s.cap.table) :
    (s.reported e).entry? e.uid = some e.withReport := by
  rw [State.reported_eq hs he, State.entry?_onEntry (State.entry?_of_mem hs he) fun x => by
    unfold Entry.reportSent; split <;> rfl]
  by_cases hm : e.member = .resolved <;> simp [Entry.reportSent, Entry.withReport, hm]

/-- An entry changed after its REPORT has been sent. -/
theorem State.map_reported {s : State} (hs : s.uidsSound = true) {e : Entry} (he : e ∈ s.cap.table) (f : Entry → Entry) :
    ((s.reported e).cap.table.map fun x => if x = e.withReport then f x else x) =
      s.cap.table.map fun x => if x = e then f e.withReport else x := by
  rw [State.reported, List.map_map]
  refine List.map_congr_left fun x hx => ?_
  by_cases hxe : x = e
  · simp [hxe]
  · have hne : x ≠ e.withReport := fun h => hxe ((State.uid_eq_iff hs he hx).mp (by rw [h]; rfl))
    simp [hxe, hne]

end Sys2Proof.Machine

namespace Sys2Proof

-- one declaration after the other: fewer threads at a time
set_option Elab.async false

open Machine

/-- Settles O38: the discard is counted, and then the owner takes the outcome of its kind. -/
theorem discardTellsOwner : Obligations.DiscardTellsOwner := by
  unfold Obligations.DiscardTellsOwner
  intro dt s f sent finishing edge hhold hf hr hlast k hlen hdom quiet
  have hf' : (s.elapse dt).link.flight = some ⟨f, sent, true, finishing⟩ := by simpa using hf
  have herring := State.erring_eq hf' (State.elapse_receiver_taking dt hr)
  rw [if_pos ⟨hlen, hdom⟩] at herring
  let u : State := (s.elapse dt).discarding finishing (dominantBit sent k)
  let g : QFrame := { f with attempts := f.attempts + 1 }
  have hbit : (s.elapse dt).bitError = u.lose g .failed := State.bitError_discards herring hlast
  have hlink : (s.elapse dt).link = { s.link with idleCount := (s.elapse dt).link.idleCount } :=
    State.elapse_link_taking dt hr
  refine ⟨(u.lose g .failed).cap.table, (u.lose g .failed).link.queue, (u.lose g .failed).trig,
    (u.lose g .failed).ctrl, ?_, ?_⟩
  · rw [exec_eq_effect]
    simp only [Instr.elapsed, effect]
    rw [hbit, State.lose_eq u g .failed]
    simp only [u, State.forget, State.discarding, State.elapse_discards, State.elapse_linkState, State.elapse_req,
      State.elapse_cap]
    rw [hlink]
    rfl
  · have hcap : u.cap = s.cap := by simp [u, State.discarding]
    have hqueue : u.link.queue = s.link.queue := by simp [u, State.discarding]
    have htrig : u.trig = s.trig := by simp [u, State.discarding]
    have hctrl : u.ctrl = s.ctrl := by simp [u, State.discarding]
    have hentry : ∀ uid, u.entry? uid = s.entry? uid := fun uid => by rw [State.entry?, hcap]; rfl
    obtain ⟨owner, content, age, attempts, started⟩ := f
    cases owner with
    | entry uid =>
      cases content with
      | call b =>
        have hcall : u.lose g .failed = u.callLost uid := rfl
        rw [hcall, State.callLost_eq]
        refine ⟨by rw [hcap], fun hn => ?_, fun hn => ?_, hctrl, ?_⟩
        · rw [hentry, if_pos hn, hqueue]
        · rw [hentry, if_neg hn, LinkUnit.withdraw, hqueue]
          simp only [bne_eq_decide_ne]
        · rw [htrig, State.callTerm, hentry]
          rfl
      | report b =>
        have hreport : u.lose g .failed = u.onEntry uid Entry.abandon := rfl
        rw [hreport]
        refine ⟨?_, hqueue, htrig, hctrl⟩
        rw [State.onEntry_table, hcap]
        refine List.map_congr_left fun x _ => ?_
        by_cases hx : x.uid = uid <;> simp [hx, Entry.abandon]
      | close b =>
        have hclose : u.lose g .failed = u.freeEntry uid := rfl
        rw [hclose]
        refine ⟨by rw [State.freeEntry_table, hcap], ?_, htrig, hctrl⟩
        rw [State.freeEntry_queue, hqueue]
        simp only [bne_eq_decide_ne]
      | leave b | beacon b | reply b c => exact ⟨by rw [← hcap]; rfl, hqueue, htrig, hctrl⟩
    | declined tag | reply id | time =>
      exact ⟨by rw [← hcap]; rfl, hqueue, htrig, hctrl⟩
    | controller =>
      have hleave : u.lose g .failed = u.leaveEnded := rfl
      rw [hleave, State.leaveEnded_eq]
      refine ⟨by rw [hcap], hqueue, htrig, ?_⟩
      rw [State.leaveEnded_ctrl, hctrl]
      cases s.ctrl.monitor <;> simp [u, State.discarding]

/-- Settles O39: the frame is gone, and then the owner takes *sent*. -/
theorem frameSentTellsOwner : Obligations.FrameSentTellsOwner := by
  unfold Obligations.FrameSentTellsOwner
  intro dt s f sent finishing edge hhold hf hr hend hmember
  have hdue : (s.elapse dt).sentDue = some ⟨f, sent, true, finishing⟩ :=
    State.sentDue_eq (by simpa using hf) (State.elapse_receiver_taking dt hr) hend
  have hcap : (s.elapse dt).sentAway.cap = s.cap := by simp [State.sentAway]
  have hqueue : (s.elapse dt).sentAway.link.queue = s.link.queue := by simp [State.sentAway]
  have hctrl : (s.elapse dt).sentAway.ctrl = s.ctrl := by simp [State.sentAway]
  have hmember' : ∀ uid r e, f.owner = .entry uid → f.content = .report r →
      (s.elapse dt).sentAway.entry? uid = some e → e.origin = none := fun uid r e ho hc he => by
    rw [State.entry?, hcap] at he
    exact hmember uid r e ho hc he
  refine ⟨((s.elapse dt).sentAway.sentOutcome f).cap.table, ((s.elapse dt).sentAway.sentOutcome f).link.queue,
    ((s.elapse dt).sentAway.sentOutcome f).ctrl, ?_, ?_⟩
  · rw [exec_eq_effect]
    simp only [Instr.elapsed, effect]
    rw [State.frameSent_eq hdue, State.sentOutcome_eq hmember']
    simp only [State.forget, State.sentAway, State.withLink, State.elapse_req, State.elapse_cap]
    rw [State.elapse_link_taking dt hr]
  · obtain ⟨owner, content, age, attempts, started⟩ := f
    cases owner with
    | entry uid =>
      cases content with
      | call b =>
        have hcall : (s.elapse dt).sentAway.sentOutcome ⟨.entry uid, .call b, age, attempts, started⟩ =
          (s.elapse dt).sentAway.callSent uid := rfl
        rw [hcall]
        refine ⟨hqueue, hctrl, ?_⟩
        rw [State.callSent, State.onEntry_table, hcap]
        refine List.map_congr_left fun x _ => ?_
        by_cases hx : x.uid = uid
        · simp only [hx, if_true, Entry.onOrigin, State.sentAway, State.withLink_image, State.elapse_image, addTicks,
            Config.ticksPerMs]
          rfl
        · simp only [hx, if_false]
      | report b =>
        rw [State.sentOutcome_report rfl rfl fun e he => hmember' uid b e rfl rfl he]
        refine ⟨hqueue, hctrl, ?_⟩
        rw [State.onEntry_table, hcap]
        refine List.map_congr_left fun x _ => ?_
        by_cases hx : x.uid = uid <;> simp [hx, Entry.reportSent]
      | close b =>
        have hclose : (s.elapse dt).sentAway.sentOutcome ⟨.entry uid, .close b, age, attempts, started⟩ =
          (s.elapse dt).sentAway.freeEntry uid := rfl
        rw [hclose]
        refine ⟨by rw [State.freeEntry_table, hcap], ?_, hctrl⟩
        rw [State.freeEntry_queue, hqueue]
        simp only [bne_eq_decide_ne]
      | leave b | beacon b | reply b c => exact ⟨by rw [← hcap]; rfl, hqueue, hctrl⟩
    | declined tag | reply id | time => exact ⟨by rw [← hcap]; rfl, hqueue, hctrl⟩
    | controller =>
      have hleave : (s.elapse dt).sentAway.sentOutcome ⟨.controller, content, age, attempts, started⟩ =
        (s.elapse dt).sentAway.leaveEnded := rfl
      rw [hleave, State.leaveEnded_eq]
      refine ⟨by rw [hcap], hqueue, ?_⟩
      rw [State.leaveEnded_ctrl, hctrl]
      cases s.ctrl.monitor <;> simp [State.sentAway]

/-- Settles O40: the REPORT makes the member part REPORTED, and then the origin part counts it or does not. -/
theorem ownReportCounted : Obligations.OwnReportCounted := by
  unfold Obligations.OwnReportCounted
  intro dt s f sent edge r e o hf hr hend hfo hfc hmem ho huids hsound
  have hdue : (s.elapse dt).sentDue = some ⟨f, sent, true, false⟩ :=
    State.sentDue_eq (by simpa using hf) (State.elapse_receiver_taking dt hr) hend
  have hmem' : e ∈ (s.elapse dt).sentAway.cap.table := by simpa [State.sentAway] using hmem
  have huids' : (s.elapse dt).sentAway.uidsSound = true := (s.elapse_uidsSound dt).trans huids
  have hsent : (s.elapse dt).frameSent =
      ((s.elapse dt).sentAway.reported e).countAnswer e.uid s.ctrl.identity false := by
    rw [State.frameSent_eq hdue, State.reported_eq huids' hmem']
    simp [State.sentOutcome, hfo, hfc, State.reportSent, State.sentAway]
  have hentry := State.reported_entry huids' hmem'
  refine ⟨fun hnot => ?_, fun hstate hbegun hresp hdecl => ?_⟩
  · rw [exec_eq_effect]
    simp only [Instr.elapsed, effect]
    rw [hsent, State.countAnswer_of_not_open hentry _ _ fun o' ho' => ?_]
    · simp only [State.reported, Entry.withReport, State.sentAway, State.withLink, State.elapse_cap]
      rw [State.elapse_link_taking dt hr]
    · obtain rfl : o = o' := Option.some.inj (ho.symm.trans ho')
      exact (o.not_open_iff _).mpr (.inr hnot)
  · intro responders covered
    have hopen : (o.open_ && !o.counted s.ctrl.identity) = true := by
      rw [← Bool.not_eq_false, Origin.not_open_iff]
      simp [hstate, hbegun, hresp, hdecl]
    have huidsSent : ((s.elapse dt).sentAway.reported e).uidsSound = true :=
      State.uidsSound_of_map (g := fun x => if x = e then e.withReport else x) rfl rfl
        (fun x => by split <;> [(rename_i hx; rw [hx]; rfl); rfl]) huids'
    have hroom : ((s.elapse dt).sentAway.reported e).link.count < 12 := by
      simp [State.queueSound, LinkUnit.count, hf, Config.queueSize] at hsound
      simp [State.reported, State.sentAway, LinkUnit.count]
      omega
    have hcovered : covered = decide (o.state = .collecting ∧ (o.answered s.ctrl.identity false).covered = true) := by
      simp only [covered, Origin.covered_iff]
      rfl
    have hcounted := State.countAnswer_eq huidsSent (State.entry?_eq_some hentry).1 (o := o) ho hopen false hroom
    rw [exec_eq_effect]
    simp only [Instr.elapsed, effect]
    have huid : e.withReport.uid = e.uid := rfl
    rw [hsent, ← huid, hcounted, State.map_reported huids' hmem', Origin.counting_eq]
    clear_value covered
    subst hcovered
    by_cases hc : o.state = .collecting ∧ (o.answered s.ctrl.identity false).covered = true
    · simp only [hc, and_self, decide_true, if_true, State.reported, Entry.withReport, State.sentAway, State.withLink,
        LinkUnit.enqueue, State.elapse_cap, State.elapse_queue, State.elapse_nextAge, Bool.false_eq_true, if_false]
      rw [State.elapse_link_taking dt hr]
    · simp only [hc, decide_false, if_false, State.reported, Entry.withReport, State.sentAway, State.withLink,
        State.elapse_cap, Bool.false_eq_true, if_false]
      rw [State.elapse_link_taking dt hr]

end Sys2Proof

/-!
PROOFS. The transmit queue's choices: which frame an offer replaces, evicts or does not move, and what the owners take; and
the frame that starts, with what its owner composes.
-/

namespace Sys2Proof.Machine

-- one declaration after the other: fewer threads at a time
set_option Elab.async false

/-! ### The least urgent frame -/

/-- R143: a frame is at most as far back in the queue as another: of a smaller class, or of the same and not younger. -/
def QFrame.NotAfter (f g : QFrame) : Prop :=
  f.content.cls < g.content.cls ∨ (f.content.cls = g.content.cls ∧ f.age ≤ g.age)

theorem QFrame.NotAfter.trans {f g h : QFrame} (hfg : f.NotAfter g) (hgh : g.NotAfter h) : f.NotAfter h := by
  unfold QFrame.NotAfter at *
  omega

theorem QFrame.notAfter_worse (f g : QFrame) : f.NotAfter (f.worse g) ∧ g.NotAfter (f.worse g) := by
  unfold QFrame.worse QFrame.before QFrame.NotAfter
  split <;> simp_all <;> omega

/-- The frame a fold of `worse` takes is the last of all. -/
theorem notAfter_foldl_worse (l : List QFrame) (f : QFrame) :
    ∀ g ∈ f :: l, g.NotAfter (l.foldl QFrame.worse f) := by
  induction l generalizing f with
  | nil => simp [QFrame.NotAfter]
  | cons h rest ih =>
    intro g hg
    have hworse := ih (f.worse h) (f.worse h) List.mem_cons_self
    rcases List.mem_cons.mp hg with rfl | hg
    · exact (g.notAfter_worse h).1.trans hworse
    · rcases List.mem_cons.mp hg with rfl | hg
      · exact (f.notAfter_worse g).2.trans hworse
      · exact ih _ g (List.mem_cons_of_mem _ hg)

theorem LinkUnit.worst_spec {l : LinkUnit} {v : QFrame} (h : l.worst = some v) : ∀ f ∈ l.queue, f.NotAfter v := by
  unfold LinkUnit.worst at h
  cases hq : l.queue with
  | nil => simp
  | cons f rest =>
    rw [hq] at h
    obtain rfl := Option.some.inj h
    exact notAfter_foldl_worse rest f

theorem LinkUnit.worst_eq_none {l : LinkUnit} : l.worst = none ↔ l.queue = [] := by
  unfold LinkUnit.worst
  cases l.queue <;> simp

theorem LinkUnit.victim_eq_some {l : LinkUnit} {cls : Nat} {v : QFrame} (h : l.victim cls = some v) :
    l.worst = some v := by
  unfold LinkUnit.victim at h
  cases hw : l.worst with
  | none => simp [hw] at h
  | some w => simp only [hw] at h; split at h <;> simp_all

theorem LinkUnit.victim_eq_none {l : LinkUnit} {cls : Nat} : l.victim cls = none ↔ ∀ f ∈ l.queue, f.content.cls ≤ cls := by
  constructor
  · intro h f hf
    unfold LinkUnit.victim at h
    cases hw : l.worst with
    | none => simp [LinkUnit.worst_eq_none.mp hw] at hf
    | some w =>
      have := LinkUnit.worst_spec hw f hf
      unfold QFrame.NotAfter at this
      simp only [hw] at h
      split at h <;> simp_all
      omega
  · intro h
    cases hv : l.victim cls with
    | none => rfl
    | some v =>
      obtain ⟨hmem, hlt⟩ := LinkUnit.victim_mem hv
      have := h v hmem
      omega

/-! ### Offers -/

theorem State.lose_report_eq {s : State} {f : QFrame} {uid : Nat} {r : ReportFrame} {o : Loss} (ho : f.owner = .entry uid)
    (hc : f.content = .report r) (hw : o ≠ .withdrawn) : s.lose f o = { s with cap := { s.cap with
      table := s.cap.table.map fun x =>
        if x.uid = uid ∧ x.member = .resolved then { x with member := .abandoned } else x } } := by
  have htable : (s.cap.table.map fun x => if x.uid = uid then x.abandon else x) = s.cap.table.map fun x =>
      if x.uid = uid ∧ x.member = .resolved then { x with member := .abandoned } else x :=
    List.map_congr_left fun x _ => by by_cases hx : x.uid = uid <;> simp [hx, Entry.abandon]
  simp only [State.lose, ho, hc, if_neg hw, State.onEntry, htable]

theorem State.lose_declined_eq {s : State} {f : QFrame} {tag : Tag} (o : Loss) (ho : f.owner = .declined tag) :
    s.lose f o = { s with cap := { s.cap with declined := s.cap.declined.filter fun t => t != tag } } := by
  simp only [State.lose, ho, State.undecline, bne_eq_decide_ne]

theorem State.lose_reply_eq {s : State} {f : QFrame} {id : Nat} (o : Loss) (ho : f.owner = .reply id) :
    s.lose f o = { s with req := { s.req with replies := s.req.replies.filter fun r => f.replyId? != some r.id } } := by
  have h : s.lose f o = s.dropReply id := by simp [State.lose, ho]
  have hdeclined : (s.cap.declined.filter fun t => f.owner != .declined t) = s.cap.declined := by simp [ho]
  rw [h, State.dropReply_eq_forget ho, State.forget, hdeclined]

theorem State.lose_time_eq {s : State} {f : QFrame} (o : Loss) (ho : f.owner = .time) : s.lose f o = s := by
  simp [State.lose, ho]

/-- R143: the four ways of an offer, by what the queue holds. -/
theorem State.offer_replacing {s : State} {o : Owner} {c : Content} {old : QFrame} (h : s.link.predecessor c = some old) :
    s.offer o c = (s.withLink (s.link.replace old o c)).lose old .withdrawn := by
  simp [State.offer, h]

theorem State.offer_evicting {s : State} {o : Owner} {c : Content} {v : QFrame} (hp : s.link.predecessor c = none)
    (hfull : 12 ≤ s.link.count) (hv : s.link.victim c.cls = some v) :
    s.offer o c = ((s.withLink (s.link.remove v.age)).lose v .evicted).withLink
      (((s.withLink (s.link.remove v.age)).lose v .evicted).link.enqueue o c) := by
  have hroom : ¬ s.link.count < Config.queueSize := by simp [Config.queueSize]; omega
  simp [State.offer, hp, hroom, hv]

theorem State.offer_refused {s : State} {o : Owner} {c : Content} (hp : s.link.predecessor c = none)
    (hfull : 12 ≤ s.link.count) (hv : s.link.victim c.cls = none) :
    s.offer o c = s.lose ⟨o, c, s.link.nextAge, 0, false⟩ .refused := by
  have hroom : ¬ s.link.count < Config.queueSize := by simp [Config.queueSize]; omega
  simp [State.offer, hp, hroom, hv]

end Sys2Proof.Machine

namespace Sys2Proof

-- one declaration after the other: fewer threads at a time
set_option Elab.async false

open Machine

/-- Settles O42: the victim is the last frame of the queue's order, and each way of an offer tells the owner of its kind. -/
theorem evictionTakesLeastUrgent : Obligations.EvictionTakesLeastUrgent := by
  unfold Obligations.EvictionTakesLeastUrgent
  refine ⟨fun l cls => ⟨fun v hv => ?_, LinkUnit.victim_eq_none⟩, ?_⟩
  · obtain ⟨hmem, hlt⟩ := LinkUnit.victim_mem hv
    exact ⟨hmem, hlt, LinkUnit.worst_spec (LinkUnit.victim_eq_some hv)⟩
  · intro s owner c replaced admitted without abandoned
    have hreplaced : replaced = s.link.predecessor c := by
      simp only [replaced]
      cases c with
      | beacon b | reply i b =>
        simp only [LinkUnit.predecessor]
        congr 1
        funext f
        cases f.content <;> rfl
      | call b | report b | close b | leave b =>
        refine List.find?_eq_none.mpr fun f _ => ?_
        cases f.content <;> simp
    clear_value replaced
    subst hreplaced
    refine ⟨fun old hold howner => ?_, fun hp hroom => ?_, fun hp hfull v hv => ?_, fun hp hfull hv => ?_⟩
    · have hdeclined : (s.cap.declined.filter fun t => old.owner != .declined t) = s.cap.declined := by
        rcases howner with ho | ⟨id, ho⟩ <;> simp [ho]
      rw [State.offer_replacing hold, State.lose_withdrawn_eq, State.forget]
      simp only [State.withLink, LinkUnit.replace, without, hdeclined]
    · rw [State.offer_of_room hp (by simpa [Config.queueSize] using hroom)]
      simp only [State.withLink, LinkUnit.enqueue, admitted]
    · intro link
      rw [State.offer_evicting hp hfull hv]
      refine ⟨fun uid r ho hc => ?_, fun tag ho => ?_, fun ho => ?_, fun id ho => ?_⟩
      · rw [State.lose_report_eq ho hc (by simp)]
        simp only [State.withLink, LinkUnit.enqueue, LinkUnit.remove, link, admitted, abandoned]
      · rw [State.lose_declined_eq _ ho]
        simp only [State.withLink, LinkUnit.enqueue, LinkUnit.remove, link, admitted]
      · rw [State.lose_time_eq _ ho]
        simp only [State.withLink, LinkUnit.enqueue, LinkUnit.remove, link, admitted]
      · rw [State.lose_reply_eq _ ho]
        simp only [State.withLink, LinkUnit.enqueue, LinkUnit.remove, link, admitted, without]
    · rw [State.offer_refused hp hfull hv]
      refine ⟨fun uid b e ho hc he => ?_, fun uid b ho hc => ?_, fun uid r ho hc => ?_, fun tag ho => ?_, fun ho => ?_,
        fun id ho => ?_, fun ho => ?_⟩
      · subst ho hc
        have hcall : s.lose ⟨.entry uid, .call b, s.link.nextAge, 0, false⟩ .refused = s.callLost uid := rfl
        rw [hcall, State.callLost_eq, State.callTerm, he, if_neg (by simp)]
        simp only [LinkUnit.withdraw, bne_eq_decide_ne, Trigger.losing, Option.bind_some]
      · subst ho hc
        have hclose : s.lose ⟨.entry uid, .close b, s.link.nextAge, 0, false⟩ .refused = s.freeEntry uid := rfl
        rw [hclose]
        simp only [State.freeEntry, LinkUnit.withdraw, bne_eq_decide_ne]
      · exact State.lose_report_eq ho hc (by simp)
      · exact State.lose_declined_eq _ ho
      · exact State.lose_time_eq _ ho
      · subst ho; rfl
      · subst ho
        have hleave : s.lose ⟨.controller, c, s.link.nextAge, 0, false⟩ .refused = s.leaveEnded := rfl
        rw [hleave, State.leaveEnded_eq, State.leaveEnded_ctrl]
        cases s.ctrl.monitor <;> simp

end Sys2Proof

/-!
PROOFS. The start of a frame: which one starts, what its owner composes, and the bytes it goes out as.
-/

namespace Sys2Proof.Machine

-- one declaration after the other: fewer threads at a time
set_option Elab.async false

/-! ### Which frame starts -/

theorem State.starting_eq_none {s : State} (h : s.link.busIdle = false ∨ s.link.state ≠ .active ∨
    (s.ctrl.lifecycle ≠ .joined ∧ s.ctrl.lifecycle ≠ .leaving)) : s.starting = none := by
  unfold State.starting
  cases s.link.candidate with
  | none => rfl
  | some f =>
    rcases h with h | h | ⟨hj, hl⟩
    · simp [h]
    · simp [h]
    · have hallows : s.ctrl.lifecycle.allows f.content = false := by
        cases hlc : s.ctrl.lifecycle <;> simp_all [Lifecycle.allows]
      simp [hallows]

theorem State.starting_eq_some {s : State} {f : QFrame} (hhold : s.ctrl.hold = none) (hidle : s.link.busIdle = true)
    (hactive : s.link.state = .active)
    (hl : s.ctrl.lifecycle = .joined ∨ (s.ctrl.lifecycle = .leaving ∧ ∃ reason, f.content = .leave reason))
    (hf : s.link.candidate = some f) : s.starting = some f := by
  have hallows : s.ctrl.lifecycle.allows f.content = true := by
    rcases hl with hl | ⟨hl, reason, hc⟩
    · simp [hl, Lifecycle.allows]
    · simp [hl, hc, Lifecycle.allows]
  simp [State.starting, hf, State.released, hhold, hidle, hactive, hallows]

/-! ### What its owner composes -/

theorem State.compose_eq (s : State) (o : Owner) (c : Content) (started : Bool) : (s.compose o c started).1 = { s with
    cap := { s.cap with table := (s.compose o c started).1.cap.table }, req := (s.compose o c started).1.req } := by
  unfold State.compose
  split
  · split <;> rfl
  · split <;> rfl
  · rfl
  · split <;> [(split <;> rfl); rfl]
  · rfl

theorem identBit_getLsbD_fin (i : Ident) (n : Fin 32) : (identBit i).getLsbD n.val = true ↔ i.toNat = n.val := by
  rw [identBit_getLsbD]
  simp [eq_comm]

/-- R36: the expected set: the station itself and the peers that are expected to answer. -/
theorem State.expectedSet_iff (s : State) (g : Group) (n : Fin 32) : (s.expectedSet g).getLsbD n.val = true ↔
    s.ctrl.identity.toNat = n.val ∨ ∃ p ∈ s.time.peers, p.ident.toNat = n.val ∧
      (p.state = .admitted ∨ p.state = .suspect) ∧ p.groups.getLsbD g.val = true := by
  have hfold : ∀ (l : List Peer) (set : IdSet), (l.foldl (fun set p => set ||| identBit p.ident) set).getLsbD n.val = true ↔
      set.getLsbD n.val = true ∨ ∃ p ∈ l, p.ident.toNat = n.val := by
    intro l
    induction l with
    | nil => simp
    | cons p rest ih =>
      intro set
      rw [List.foldl_cons, ih, BitVec.getLsbD_or, Bool.or_eq_true, identBit_getLsbD_fin]
      simp [or_assoc]
  rw [State.expectedSet, hfold, identBit_getLsbD_fin]
  refine or_congr_right ⟨?_, ?_⟩
  · rintro ⟨p, hp, hn⟩
    obtain ⟨hmem, hexp⟩ := List.mem_filter.mp hp
    simp only [Peer.expected, Bool.and_eq_true, decide_eq_true_eq] at hexp
    exact ⟨p, hmem, hn, hexp.1, hexp.2⟩
  · rintro ⟨p, hmem, hn, hstate, hg⟩
    exact ⟨p, List.mem_filter.mpr ⟨hmem, by simp only [Peer.expected, Bool.and_eq_true, decide_eq_true_eq]
                                            exact ⟨hstate, hg⟩⟩, hn⟩

end Sys2Proof.Machine

namespace Sys2Proof

-- one declaration after the other: fewer threads at a time
set_option Elab.async false

open Machine

/-- Settles O35: the candidate goes on the wire, its owner composes it, and its bytes are its frame's encoding. -/
theorem frameStartComposes : Obligations.FrameStartComposes := by
  unfold Obligations.FrameStartComposes
  refine ⟨fun dt s h => ?_, ?_⟩
  · have hnone : (s.elapse dt).starting = none := by
      refine State.starting_eq_none ?_
      rcases h with h | h | h
      · refine .inl (Bool.eq_false_iff.mpr fun hidle => ?_)
        obtain ⟨n, hn, hle⟩ := (LinkUnit.busIdle_iff _).mp hidle
        have := h n hn
        omega
      · exact .inr (.inl (by simpa using h))
      · exact .inr (.inr (by simpa using h))
    rw [exec_eq_effect]
    simp only [Instr.elapsed, effect, State.frameStart, hnone]
  · intro dt s f rest n hhold hactive hcount hn hl hshape
    have hcandidate : (s.elapse dt).link.candidate = some f := by
      rcases hshape with ⟨hf, hq⟩ | ⟨sent, finishing, hf, hq⟩ <;> simp [LinkUnit.candidate, hf, hq]
    have hstarting : (s.elapse dt).starting = some f := State.starting_eq_some (by simpa using hhold)
      ((LinkUnit.busIdle_iff _).mpr ⟨n, hcount, hn⟩) (by simpa using hactive) (by simpa using hl) hcandidate
    have hlaunch : (s.elapse dt).link.launch f (s.elapse dt).time.localTime = { s.link with
        queue := rest, flight := some ⟨{ f with started := true }, [], true, false⟩
        idleCount := some 0, receiver := .taking (s.elapse dt).time.localTime, mark := none } := by
      rcases hshape with ⟨hf, hq⟩ | ⟨sent, finishing, hf, hq⟩ <;> simp [LinkUnit.launch, hf, hq]
    let u : State := (s.elapse dt).withLink ((s.elapse dt).link.launch f (s.elapse dt).time.localTime)
    refine ⟨(u.compose f.owner f.content f.started).2,
      (u.compose f.owner f.content f.started).2.wire s.ctrl.identity,
      (u.compose f.owner f.content f.started).1.cap.table, (u.compose f.owner f.content f.started).1.req, ?_, ?_, ?_⟩
    · rw [exec_eq_effect]
      have hstart : (s.elapse dt).frameStart = (u.compose f.owner f.content f.started).1.withLink
          ((u.compose f.owner f.content f.started).1.link.fixContent (u.compose f.owner f.content f.started).2
            ((u.compose f.owner f.content f.started).2.wire s.ctrl.identity)) := by
        simp only [State.frameStart, hstarting, u, State.elapse_ctrl]
      simp only [Instr.elapsed, effect]
      rw [hstart, State.compose_eq u]
      simp only [u, hlaunch, State.withLink, LinkUnit.fixContent, State.elapse_cap, Option.map_some]
    · cases hc : (u.compose f.owner f.content f.started).2 with
      | call b | report b | leave b => rfl
      | close b | beacon b | reply i b => cases b <;> rfl
    · have hcap : u.cap = s.cap := by simp [u]
      have hreq : u.req = s.req := by simp [u]
      have hentry : ∀ uid, u.entry? uid = s.entry? uid := fun uid => by rw [State.entry?, hcap]; rfl
      have hreply : ∀ id, u.reply? id = s.reply? id := fun id => by rw [State.reply?, hreq]; rfl
      have hlink : u.link.count = s.link.count := by
        simp only [u, State.withLink_link, hlaunch, LinkUnit.count]
        rcases hshape with ⟨hf, hq⟩ | ⟨sent, finishing, hf, hq⟩ <;> simp [hf, hq]
      have hsnapshot : u.snapshot = s.snapshot := by
        simp only [State.snapshot, hlink, State.originCount, hcap, hreq]
        simp [u, TimeUnit.countPeers]
      have hctrl : u.ctrl = s.ctrl := by simp [u]
      have hpeers : u.time.peers = s.time.peers := by simp [u]
      have hbeacon : u.beaconNow = ⟨(s.elapse dt).time.localTime + s.time.correction, s.image.declared, s.ctrl.lifecycle,
          s.time.state, s.ctrl.resetCause⟩ := by simp [State.beaconNow, State.netTime, u]
      clear_value u
      have htable : u.cap.table = s.cap.table := by rw [hcap]
      obtain ⟨owner, content, age, attempts, started⟩ := f
      cases owner with
      | entry uid =>
        cases content with
        | call b =>
          cases started
          · refine ⟨rfl, hreq, u.expectedSet b.group, fun i => ?_, ?_⟩
            · rw [State.expectedSet_iff, hctrl, hpeers]
            · rw [← htable]; rfl
          · exact ⟨rfl, hreq, htable⟩
        | close b =>
          cases b with
          | some b => exact ⟨rfl, htable, hreq⟩
          | none =>
            simp only [State.compose, hentry]
            rcases s.entry? uid with _ | ⟨_, tag, _, _, _, _, _, _, _ | o⟩
            · exact ⟨hreq, rfl, htable⟩
            · exact ⟨hreq, rfl, htable⟩
            · refine ⟨hreq, ⟨o.missing, rfl, rfl⟩, ?_⟩
              rw [← htable]; rfl
        | report b | leave b | beacon b | reply i b => exact ⟨rfl, htable, hreq⟩
      | time =>
        cases content with
        | beacon b => exact ⟨by simp only [State.compose, hbeacon], htable, hreq⟩
        | call b | report b | close b | leave b | reply i b => exact ⟨rfl, htable, hreq⟩
      | reply id =>
        cases content with
        | reply requester b =>
          cases b with
          | some b => exact ⟨rfl, htable, hreq⟩
          | none =>
            simp only [State.compose, hreply]
            cases s.reply? id with
            | none => exact ⟨htable, rfl, hreq⟩
            | some r =>
              by_cases hr : r.composed = true
              · simp only [if_pos hr]
                exact ⟨htable, trivial, hreq⟩
              · simp only [if_neg hr]
                refine ⟨htable, ?_, ?_⟩
                · rw [State.composeReply, hsnapshot]
                · rw [State.markComposed, hreq]
        | call b | report b | close b | leave b | beacon b => exact ⟨rfl, htable, hreq⟩
      | declined tag | controller => exact ⟨rfl, htable, hreq⟩

end Sys2Proof

/-!
PROOFS. The status snapshot within its format, and the series of beacon slots.
-/

namespace Sys2Proof.Machine

-- one declaration after the other: fewer threads at a time
set_option Elab.async false

/-! ### The snapshot's bounds -/

/-- R80: no more than thirty peers, of every identity but none and the station's own. -/
theorem State.peers_length_le {s : State} (h : s.peersSound = true) (hid : s.ctrl.identity ≠ 0) :
    s.time.peers.length ≤ 30 := by
  simp only [State.peersSound, Bool.and_eq_true, decide_eq_true_eq, List.all_eq_true] at h
  obtain ⟨hsorted, hothers⟩ := h
  have hnodup : (s.time.peers.map fun p => p.ident.toNat).Nodup := hsorted.imp fun hlt => Nat.ne_of_lt hlt
  have hidnat : s.ctrl.identity.toNat ≠ 0 := fun h0 => hid (BitVec.eq_of_toNat_eq h0)
  have hsub : (s.time.peers.map fun p => p.ident.toNat).toFinset ⊆ ((Finset.range 32).erase 0).erase s.ctrl.identity.toNat := by
    intro n hn
    obtain ⟨p, hp, rfl⟩ := List.mem_map.mp (List.mem_toFinset.mp hn)
    obtain ⟨hzero, hown⟩ := hothers p hp
    simp only [Finset.mem_erase, Finset.mem_range]
    exact ⟨fun e => hown (BitVec.eq_of_toNat_eq e), fun e => hzero (BitVec.eq_of_toNat_eq e), p.ident.isLt⟩
  have hcard : (((Finset.range 32).erase 0).erase s.ctrl.identity.toNat).card = 30 := by
    rw [Finset.card_erase_of_mem (by simp [hidnat, s.ctrl.identity.isLt]), Finset.card_erase_of_mem (by simp),
      Finset.card_range]
  have hle := Finset.card_le_card hsub
  rw [List.toFinset_card_of_nodup hnodup, List.length_map, hcard] at hle
  exact hle

theorem TimeUnit.countPeers_le (t : TimeUnit) (x : PeerState) : t.countPeers x ≤ t.peers.length :=
  List.length_filter_le _ _

/-! ### Slots -/

theorem wrapSlot_toNat (i : Ident) (n : Nat) : (wrapSlot i n).toNat = if n < 2 ^ 48 then n else i.toNat * 2500 := by
  have hi := i.isLt
  unfold wrapSlot slotOffset Config.slotSpacing
  split
  · rw [BitVec.toNat_ofNat, Nat.mod_eq_of_lt (by assumption)]
  · rw [BitVec.toNat_ofNat, Nat.mod_eq_of_lt (by omega)]

/-- R76: the first slot in the count of ticks, before the wrap. -/
def slotFrom (i : Ident) (t : Time) : Nat :=
  let base := t.toNat / 100000 * 100000 + i.toNat * 2500
  if t.toNat < base then base else base + 100000

theorem firstSlot_toNat (i : Ident) (t : Time) :
    (firstSlot i t).toNat = if slotFrom i t < 2 ^ 48 then slotFrom i t else i.toNat * 2500 := wrapSlot_toNat i _

/-- R75: the count is the least number of the series later than the time. -/
theorem slotFrom_spec (i : Ident) (t : Time) : slotFrom i t % 100000 = i.toNat * 2500 ∧ t.toNat < slotFrom i t ∧
    ∀ n, t.toNat < n → n % 100000 = i.toNat * 2500 → slotFrom i t ≤ n := by
  have hi := i.isLt
  unfold slotFrom
  simp only
  split <;> exact ⟨by omega, by omega, fun n _ _ => by omega⟩

theorem slotFrom_of_slot {i : Ident} {slot : Time} (h : slot.toNat % 100000 = i.toNat * 2500) :
    slotFrom i slot = slot.toNat + 100000 := by
  unfold slotFrom
  simp only
  split <;> omega

theorem nextSlotOf_toNat (i : Ident) (slot : Time) : (nextSlotOf i slot).toNat =
    if slot.toNat + 100000 < 2 ^ 48 then slot.toNat + 100000 else i.toNat * 2500 := wrapSlot_toNat i _

end Sys2Proof.Machine

namespace Sys2Proof

-- one declaration after the other: fewer threads at a time
set_option Elab.async false

open Machine

/-- Settles O45: the items are those of their owners, and each count lies within its bound. -/
theorem composedReplyIsWellFormed : Obligations.ComposedReplyIsWellFormed := by
  unfold Obligations.ComposedReplyIsWellFormed
  refine ⟨?_, fun s r htable hqueue hpresets hpeers hid hrequester hcount => ?_⟩
  · intro s r x peers
    have hpeers : ∀ state, s.time.countPeers state = peers state := fun state => List.countP_eq_length_filter.symm
    refine ⟨rfl, rfl, rfl, rfl, rfl, rfl, rfl, hpeers _, hpeers _, hpeers _, fun i => ?_, fun k => ?_, rfl, rfl,
      List.countP_eq_length_filter.symm, ?_, rfl⟩
    · have hchan : x.chans.get i = (s.chans.get i).status := Four.get_build _ i
      rw [hchan]
      exact ⟨rfl, rfl, rfl, fun n => by cases n <;> exact ⟨rfl, rfl⟩⟩
    · have hterm : x.terms.get k = (s.trig.terms.get k).status := Four.get_build _ k
      rw [hterm]
      refine ⟨rfl, rfl, ?_⟩
      cases hstate : (s.trig.terms.get k).state <;> simp [Term.status, TermState.phase, hstate]
    · have hframes : x.queueFrames = s.link.count := rfl
      rw [hframes, LinkUnit.count]
      cases s.link.flight <;> simp
  · have hpeers30 := State.peers_length_le hpeers hid
    have hstates : ∀ x, s.time.countPeers x ≤ 30 := fun x => (s.time.countPeers_le x).trans hpeers30
    obtain ⟨hlen, horigin, -⟩ := s.tableSound_iff.mp htable
    simp only [State.queueSound, State.presetsSound, decide_eq_true_eq] at hqueue hpresets
    have hsnapshot : (s.composeReply r).snapshot.encodable = true := by
      rw [Snapshot.encodable, decide_eq_true_iff]
      exact ⟨hstates _, hstates _, hstates _, hlen, horigin, hcount, hqueue, hpresets⟩
    simp only [Frame.encodable, Body.encodable, hsnapshot, Bool.and_true, Bool.and_eq_true, decide_eq_true_iff]
    exact ⟨hid, hrequester⟩

/-- Settles O47: the first slot and the successor in the count of ticks, and then across the wrap. -/
theorem slotSeries : Obligations.SlotSeries := by
  unfold Obligations.SlotSeries
  intro i
  have hi := i.isLt
  refine ⟨fun t => ?_, fun slot hslot => ?_⟩
  · obtain ⟨hmod, hlater, hleast⟩ := slotFrom_spec i t
    rw [firstSlot_toNat]
    refine ⟨?_, fun ⟨n, hn, hlt, hnmod⟩ => ?_, fun hnone => ?_⟩
    · split <;> omega
    · have := hleast n hn hnmod
      rw [if_pos (by omega)]
      exact ⟨hlater, hleast⟩
    · rw [if_neg fun hlt => hnone _ hlater hlt hmod]
  · have hlt := slot.isLt
    refine ⟨BitVec.eq_of_toNat_eq ?_, ?_⟩
    · rw [nextSlotOf_toNat, firstSlot_toNat, slotFrom_of_slot hslot]
    · rw [BitVec.toNat_sub, nextSlotOf_toNat]
      split
      · omega
      · split <;> omega

end Sys2Proof

/-!
PROOFS. The join: a change of the correction while the capture unit and the preset list rest, the entry step, the schedules
and the terms.
-/

namespace Sys2Proof.Machine

-- one declaration after the other: fewer threads at a time
set_option Elab.async false

/-! ### A change of the correction at rest -/

/-- The capture unit and the preset list hold nothing a change of the correction moves. -/
structure State.Resting (s : State) : Prop where
  table : s.cap.table = []
  schedules : s.cap.schedules = []
  presets : s.hist.presets = []

theorem State.Resting.captureCorrected {s : State} (h : s.Resting) : s.captureCorrected = s := by
  have hfree : s.freeExpired = s := by simp [State.freeExpired, h.table]
  have hmiss : s.missStrobes = s := by
    have hmap : ∀ f : Entry → Entry, s.cap.table.map f = s.cap.table := by simp [h.table]
    rw [State.missStrobes]
    simp only [hmap]
  have hpass : s.passSchedules = s := by
    have hmap : ∀ f : Schedule → Schedule, s.cap.schedules.map f = s.cap.schedules := by simp [h.schedules]
    rw [State.passSchedules]
    simp only [hmap]
  have htake : s.takeDeadlines = s := by simp [State.takeDeadlines, h.table]
  rw [State.captureCorrected, hfree, hmiss, hpass, htake]

theorem State.Resting.walkPresets {s : State} (h : s.Resting) : s.walkPresets = s := by
  have hwalk : s.walk [] [] = { s with hist := { s.hist with presets := s.hist.presets } } := by rw [h.presets]; rfl
  rw [State.walkPresets, h.presets, hwalk]

/-- R74: at rest a change of the correction moves the correction and the stored offsets alone. -/
theorem State.Resting.correct {s : State} (h : s.Resting) (delta : Time) : s.correct delta = { s with time := { s.time with
    correction := s.time.correction + delta
    peers := s.time.peers.map fun p => { p with offset := p.offset - delta } } } := by
  by_cases hd : delta = 0
  · have hpeers : (s.time.peers.map fun p => { p with offset := p.offset - delta }) = s.time.peers := by simp [hd]
    have hcorrection : s.time.correction + delta = s.time.correction := by simp [hd]
    rw [hpeers, hcorrection, hd, State.correct_zero]
  · have hrest : State.Resting { s with time := { s.time with
        correction := s.time.correction + delta
        peers := s.time.peers.map fun p => { p with offset := p.offset - delta } } } := ⟨h.table, h.schedules, h.presets⟩
    rw [State.correct, if_neg hd]
    simp only [hrest.captureCorrected, hrest.walkPresets]

/-! ### The entry step -/

/-- R91: the change of the correction at the entry step. -/
def State.entryDelta (s : State) : Time :=
  if s.time.anyAdmitted then BitVec.ofInt 48 (midpoint s.time.entryVotes) else 0

/-- R76, R91: the time unit after the entry step. -/
def State.entered (s : State) : TimeUnit :=
  { s.time with
    correction := s.time.correction + s.entryDelta
    state := if s.time.anyAdmitted then .locking else .free
    peers := s.time.peers.map fun p => { p with offset := p.offset - s.entryDelta }
    nextSlot := s.time.nextSlot.map fun slot =>
      if s.entryDelta ≠ 0 ∧ later (slot - (s.time.correction + s.entryDelta)) s.time.localTime = false then
        firstSlot s.ctrl.identity (s.time.localTime + (s.time.correction + s.entryDelta))
      else slot }

theorem State.passSlot_eq (s : State) : s.passSlot = { s with time := { s.time with
    nextSlot := s.time.nextSlot.map fun slot =>
      if later (slot - s.time.correction) s.time.localTime = false then firstSlot s.ctrl.identity s.netTime else slot } } := by
  unfold State.passSlot
  split
  next slot hslot =>
    by_cases hr : s.reachedNet slot = true
    · simp only [hslot, if_pos hr, Option.map_some, if_pos ((s.reachedNet_iff slot).mp hr)]
    · have hsame : (s.time.nextSlot.map fun slot => if later (slot - s.time.correction) s.time.localTime = false then
          firstSlot s.ctrl.identity s.netTime else slot) = s.time.nextSlot := by
        rw [hslot, Option.map_some, if_neg fun h => hr ((s.reachedNet_iff slot).mpr h)]
      rw [if_neg hr, hsame]
  next hslot =>
    have hsame : (s.time.nextSlot.map fun slot => if later (slot - s.time.correction) s.time.localTime = false then
        firstSlot s.ctrl.identity s.netTime else slot) = s.time.nextSlot := by rw [hslot, Option.map_none]
    rw [hsame]

theorem State.Resting.entryStep {s : State} (h : s.Resting) : s.entryStep = { s with time := s.entered } := by
  unfold State.entryStep State.entered State.entryDelta
  cases ha : s.time.anyAdmitted
  · simp
  · simp only [if_true]
    rw [h.correct]
    generalize BitVec.ofInt 48 (midpoint s.time.entryVotes) = d
    by_cases hd : d = 0
    · simp [hd]
    · simp only [State.passSlot_eq, State.netTime, ne_eq, hd, not_false_eq_true, true_and, if_false]

/-! ### The schedules and the terms -/

theorem find?_map_group {gs : List Group} (f : Group → Schedule) (hf : ∀ g, (f g).group = g) (g : Group) :
    ((gs.map f).find? fun x => decide (x.group = g)) = if g ∈ gs then some (f g) else none := by
  induction gs with
  | nil => rfl
  | cons a gs ih =>
    by_cases ha : a = g
    · simp [hf, ha]
    · simp [hf, ha, Ne.symm ha, ih]

theorem State.schedule?_setSchedules (s : State) (g : Group) : s.setSchedules.schedule? g =
    if s.declares g = true ∧ s.cadenceTicks g ≠ 0 then some ⟨g, s.firstIndex g⟩ else none := by
  have hmem : g ∈ eight.filter (fun g => s.declares g && decide (s.cadenceTicks g ≠ 0)) ↔
      s.declares g = true ∧ s.cadenceTicks g ≠ 0 := by simp [mem_eight]
  have hfind : s.setSchedules.schedule? g =
      if g ∈ eight.filter (fun g => s.declares g && decide (s.cadenceTicks g ≠ 0)) then some ⟨g, s.firstIndex g⟩
      else none := find?_map_group (fun g => ⟨g, s.firstIndex g⟩) (fun _ => rfl) g
  simp only [hfind, hmem]

theorem State.armAtJoin_term (s : State) (k : TermNo) : s.armAtJoin.trig.terms.get k =
    if (s.image.terms.get k).condition = .none then s.trig.terms.get k
    else
      { s.trig.terms.get k with
        state := if (s.image.terms.get k).armedAtJoin then .armed else .disarmed
        ready := !(s.trig.terms.get k).blocked && (s.image.terms.get k).condition.readyNow s.trig.levels } := by
  rw [State.armAtJoin, State.withTerms, Four.get_build]
  by_cases hc : (s.image.terms.get k).condition = .none <;> simp [Condition.used, hc]

theorem State.armAtJoin_blocked (s : State) (k : TermNo) :
    (s.armAtJoin.trig.terms.get k).blocked = (s.trig.terms.get k).blocked := by
  rw [State.armAtJoin_term]
  split <;> rfl

/-! ### The join -/

theorem State.listenExpiry_eq {s : State} {expiry : Time} (hh : s.ctrl.hold = none) (hl : s.ctrl.lifecycle = .listening)
    (ht : s.ctrl.listenTimer = some expiry) (hd : later expiry s.time.localTime = false) : s.listenExpiry = s.join := by
  have hdue : s.listenDue = true := by simp [State.listenDue, ht, hl, State.released, hh, State.reached_eq, hd]
  rw [State.listenExpiry, if_pos hdue]

theorem TimeUnit.anyAdmitted_iff (t : TimeUnit) : t.anyAdmitted = true ↔ ∃ p ∈ t.peers, p.state = .admitted := by
  simp [TimeUnit.anyAdmitted]

theorem TimeUnit.entryVotes_eq (t : TimeUnit) (admitted : List Peer)
    (ha : admitted = t.peers.filter fun p => decide (p.state = .admitted)) : t.entryVotes =
    (if ∃ p ∈ admitted, p.timeState ≠ .free then admitted.filter fun p => decide (p.timeState ≠ .free) else admitted).map
      fun p => p.offset.toInt := by
  have hiff : (admitted.filter fun p => decide (p.timeState ≠ .free)).isEmpty = true ↔
      ¬ ∃ p ∈ admitted, p.timeState ≠ .free := by simp [List.isEmpty_iff, List.filter_eq_nil_iff]
  rw [TimeUnit.entryVotes, ← ha]
  by_cases h : ∃ p ∈ admitted, p.timeState ≠ .free
  · rw [if_pos h, if_neg fun he => hiff.mp he h]
  · rw [if_neg h, if_pos (hiff.mpr h)]

/-- R171: the station as it changes to JOINED, with the entry step taken. -/
def State.joining (s : State) : State :=
  { s with ctrl := { s.ctrl with lifecycle := .joined, listenTimer := none }, time := s.entered }

/-- R171: the change to JOINED from LISTENING, whose blocks rest, and what the settling step finds. -/
theorem State.join_settle {s : State} (hl : s.ctrl.lifecycle = .listening) (hrest : s.restSound = true)
    (hlines : s.linesSound = true) : s.join.settle = { s.joining.setSchedules.armAtJoin with
      ctrl := { s.ctrl with lifecycle := .joined, listenTimer := none, syncLine := false } } := by
  obtain ⟨htable, -, hschedules, hpresets⟩ := (State.restSound_iff s).mp hrest (by simp [State.joined, hl])
  obtain ⟨-, hfault, hblocked⟩ := (State.linesSound_iff s).mp hlines
  have hresting : State.Resting { s with ctrl := { s.ctrl with lifecycle := .joined, listenTimer := none } } :=
    ⟨htable, hschedules, hpresets⟩
  have hjoin : s.join = s.joining.setSchedules.armAtJoin := by
    rw [State.join, hresting.entryStep]
    rfl
  have hsettle := State.settle_lines (s := s.joining.setSchedules.armAtJoin) fun k => by
    rw [State.armAtJoin_blocked]
    exact hblocked k
  have hsyncHolds : s.joining.setSchedules.armAtJoin.syncHolds = false := by
    show decide (_ ∧ s.entered.state = .locked) = false
    simp only [State.entered]
    split <;> simp
  have hfaultHolds : s.joining.setSchedules.armAtJoin.faultHolds = s.ctrl.faultLine := by
    rw [hfault]
    refine State.faultHolds_of_same rfl rfl (by simp [hl]) ?_
    exact ⟨by rintro ⟨⟩, by rintro ⟨⟩⟩
  rw [hjoin, hsettle, hsyncHolds, hfaultHolds]
  rfl

theorem State.elapse_restSound (s : State) (dt : Lapse) (h : s.restSound = true) : (s.elapse dt).restSound = true := by
  simpa [State.restSound_iff] using h

theorem State.elapse_linesSound (s : State) (dt : Lapse) (h : s.linesSound = true) : (s.elapse dt).linesSound = true :=
  State.linesSound_of_same h (by simp) (by simp) (by simp) (by simp) (by simp)

end Sys2Proof.Machine

namespace Sys2Proof

-- one declaration after the other: fewer threads at a time
set_option Elab.async false

open Machine

/-- Settles O14: outside JOINED the capture unit and the preset list rest, so the entry step moves the correction and the
offsets alone; the settling step finds the terms' blocked flags and the FAULT line as they stand. -/
theorem joinTakesEntryStep : Obligations.JoinTakesEntryStep := by
  intro dt s expiry hh hl ht hd hrest hlines
  have hsettle := State.join_settle (s := s.elapse dt) (by simpa using hl) (s.elapse_restSound dt hrest)
    (s.elapse_linesSound dt hlines)
  have hexec : exec (.listenTimerExpiry dt) s = .next (s.elapse dt).join.settle := by
    rw [exec_eq_effect]
    show Host.Outcome.next (s.elapse dt).listenExpiry.settle = _
    rw [State.listenExpiry_eq (by simpa using hh) (by simpa using hl) (by simpa using ht) hd]
  rw [hsettle] at hexec
  have hany : (s.elapse dt).time.anyAdmitted = true ↔ ∃ p ∈ s.time.peers, p.state = .admitted := by
    rw [TimeUnit.anyAdmitted_iff, State.elapse_peers]
  refine ⟨_, (s.elapse dt).entryDelta, hexec, fun h => ?_, ?_, ?_, ?_, fun g => ?_, fun k => ?_, ?_, ?_, ?_, ?_, ?_, ?_, ?_,
    ?_, ?_⟩
  · rw [State.entryDelta, if_neg (mt hany.mp h)]
  · intro admitted used S hsorted hperm hne
    have hvotes : (s.elapse dt).time.entryVotes = used.map fun p => p.offset.toInt :=
      TimeUnit.entryVotes_eq _ admitted (by rw [State.elapse_peers])
    have hadmitted : (s.elapse dt).time.anyAdmitted = true := by
      rw [hany]
      by_contra hno
      have hnil : admitted = [] := by simpa [admitted, List.filter_eq_nil_iff] using hno
      have hused : used = [] := by simp [used, hnil]
      exact hne (List.Perm.eq_nil (by simpa [hused] using hperm))
    rw [State.entryDelta, if_pos hadmitted, hvotes, midpoint_of_sorted hsorted hperm]
  · simp
  · have htime : (s.elapse dt).joining.setSchedules.armAtJoin.time = (s.elapse dt).entered := rfl
    simp only [State.netTime, htime, State.entered, hany, State.elapse_correction, State.elapse_peers,
      State.elapse_nextSlot, State.elapse_ctrl]
  · have h := (s.elapse dt).joining.schedule?_setSchedules g
    simp only [State.declares, State.cadenceTicks, State.joining, State.elapse_image, Config.ticksPerMs, ne_eq,
      Nat.mul_eq_zero, OfNat.ofNat_ne_zero, or_false] at h ⊢
    exact h
  · have h := (s.elapse dt).joining.setSchedules.armAtJoin_term k
    simpa [State.joining, State.setSchedules] using h
  all_goals simp [State.armAtJoin, State.withTerms, State.setSchedules, State.joining]

end Sys2Proof

/-!
PROOFS. The events of an entry, of a strobe and of a channel: the retention end, the collection deadline, the strobe instant
and the pulse end; the causes of a line and the auto-acknowledge timer.
-/

namespace Sys2Proof.Machine

-- one declaration after the other: fewer threads at a time
set_option Elab.async false

/-! ### The events of an entry -/

theorem State.retentionEnd_eq {s : State} {tag : Tag} {e : Entry} (he : s.tagged? tag = some e) (ho : e.origin = none)
    (hd : later (e.retentionEnd - s.time.correction) s.time.localTime = false) :
    s.retentionEnd tag = s.freeEntry e.uid := by
  have hdue : s.retentionDue e = true := by rw [State.retentionDue, ho, (s.reachedNet_iff _).mpr hd]; rfl
  rw [State.retentionEnd, he]
  exact if_pos hdue

theorem State.collectionDeadline_eq {s : State} (hs : s.uidsSound = true) {tag : Tag} {e : Entry} {o : Origin} {d : Time}
    (he : s.tagged? tag = some e) (ho : e.origin = some o) (hc : o.state = .collecting) (hod : o.deadline = some d)
    (hd : later (d - s.time.correction) s.time.localTime = false) :
    s.collectionDeadline tag = s.beginClosing e.uid := by
  have hdue : s.deadlineDue e = true := by
    obtain ⟨state, responders, decliners, expected, deadline, closeBegun, term⟩ := o
    subst hc hod
    rw [State.deadlineDue, ho]
    exact (s.reachedNet_iff _).mpr hd
  rw [State.collectionDeadline, he]
  simp only [State.takeDeadline, State.entry?_of_mem hs (State.tagged?_eq_some he).1]
  exact if_pos hdue

theorem State.strobeInstant_eq {s : State} {tag : Tag} {e : Entry} (he : s.tagged? tag = some e)
    (hp : e.strobe = .pending) (hd : later (e.time - s.time.correction) s.time.localTime = false) :
    s.strobeInstant tag = (s.onEntry e.uid fun e => { e with strobe := .done }).pulse e.group := by
  have hdue : s.strobeDue e = true := by rw [State.strobeDue, hp, (s.reachedNet_iff _).mpr hd]; rfl
  rw [State.strobeInstant, he]
  exact if_pos hdue

theorem State.strobePulseEnd_eq {s : State} {j : StrobeNo} {d : Time} (hp : (s.strobe j).pulseEnd = some d)
    (hd : later d s.time.localTime = false) : s.strobePulseEnd j = s.setStrobe j ⟨false, none⟩ := by
  have hdue : s.pulseEndDue (s.strobe j) = true := by
    rw [State.pulseEndDue, hp]
    simp [State.reached_eq, hd]
  rw [State.strobePulseEnd, if_pos hdue]

theorem State.map_uid_at {s : State} (hs : s.uidsSound = true) {e : Entry} (he : e ∈ s.cap.table) (f : Entry → Entry) :
    (s.cap.table.map fun x => if x.uid = e.uid then f x else x) = s.cap.table.map fun x => if x = e then f e else x := by
  rw [State.map_uid hs he]
  refine List.map_congr_left fun x _ => ?_
  by_cases hx : x = e <;> simp [hx]

/-! ### The causes of a line -/

/-- R103: what the front end's change of a line's level does, on a watched line and on another. -/
theorem State.causeAppears_eq {s : State} {i : Chan} {n : Line} (h : (s.pins.causes.get i).get n = false) :
    s.causeAppears i n = { s with
      pins := { s.pins with causes := s.pins.causes.set i ((s.pins.causes.get i).set n true) }
      chans := s.chans.set i (if s.monitored i n then (s.chans.get i).causeAppears n else s.chans.get i) } := by
  rw [State.causeAppears, if_neg (by simp [h])]
  cases s.monitored i n <;> simp [State.setCausePin, State.onChannel]

theorem State.causeDisappears_eq {s : State} {i : Chan} {n : Line} (h : (s.pins.causes.get i).get n = true) :
    s.causeDisappears i n = { s with
      pins := { s.pins with causes := s.pins.causes.set i ((s.pins.causes.get i).set n false) }
      chans := s.chans.set i (if s.monitored i n then
        (s.chans.get i).causeDisappears n s.image.quietTime s.time.localTime else s.chans.get i) } := by
  rw [State.causeDisappears, if_pos h]
  cases s.monitored i n <;> simp [State.setCausePin, State.onChannel]

theorem State.monitored_eq (s : State) (i : Chan) (n : Line) :
    s.monitored i n = (s.running && decide (s.image.modes.get i ≠ .off) && (s.image.monitors.get i).get n) := rfl

theorem State.autoAck_eq {s : State} {i : Chan} {expiry : Time} (ht : (s.chans.get i).timer = some expiry)
    (hr : s.running = true) (hd : later expiry s.time.localTime = false) :
    s.autoAck i = { s with chans := s.chans.set i (s.chans.get i).acknowledge } := by
  have hdue : s.autoAckDue i = true := by
    rw [State.autoAckDue, ht]
    simp [hr, State.reached_eq, hd]
  rw [State.autoAck, if_pos hdue, State.onChannel]

theorem LineRecord.clear_eq (r : LineRecord) : r.clear = ⟨r.cause, r.latched && r.cause⟩ := by
  obtain ⟨cause, latched⟩ := r
  cases cause <;> simp [LineRecord.clear]

theorem Channel.record_setRecord (c : Channel) (n m : Line) (r : LineRecord) :
    (c.setRecord n r).record m = if m = n then r else c.record m := by
  cases n <;> cases m <;> rfl

/-- R103, R104: a cause that appears sets its record and, on A or B, makes the channel FAULT. -/
theorem Channel.causeAppears_spec (c : Channel) (n : Line) :
    (c.causeAppears n).record n = ⟨true, true⟩ ∧ (∀ n', n' ≠ n → (c.causeAppears n).record n' = c.record n') ∧
      (c.causeAppears n).count = c.count ∧ (c.causeAppears n).epoch = c.epoch ∧ (c.causeAppears n).lastA = c.lastA ∧
      (c.causeAppears n).lastB = c.lastB ∧
      (c.causeAppears n).quality = (if n = .r then c.quality else .fault) ∧
      (c.causeAppears n).timer = (if n = .r then c.timer else none) := by
  refine ⟨by cases n <;> rfl, fun n' hn => ?_, by cases n <;> rfl, by cases n <;> rfl, by cases n <;> rfl,
    by cases n <;> rfl, by cases n <;> rfl, by cases n <;> rfl⟩
  cases n <;> cases n' <;> simp_all [Channel.causeAppears, Channel.setRecord, Channel.record]

/-- R105: the cause on line `n` is the last one that makes the channel FAULT. -/
def Channel.LastCause (c : Channel) (n : Line) : Prop :=
  n ≠ .r ∧ c.quality = .fault ∧ (n ≠ .a → c.recA.cause = false) ∧ (n ≠ .b → c.recB.cause = false)

theorem Channel.causeDisappears_last {c : Channel} {n : Line} (h : c.LastCause n) (quiet : Nat) (now : Time) :
    c.causeDisappears n quiet now =
      { c.setRecord n ⟨false, (c.record n).latched⟩ with quality := .unconfirmed, timer := startTimer quiet now } := by
  obtain ⟨hr, hq, ha, hb⟩ := h
  cases n with
  | a => simp [Channel.causeDisappears, Channel.setRecord, Channel.record, Channel.countCause, hq, hb]
  | b => simp [Channel.causeDisappears, Channel.setRecord, Channel.record, Channel.countCause, hq, ha]
  | r => exact absurd rfl hr

theorem Channel.causeDisappears_other {c : Channel} {n : Line} (h : ¬ c.LastCause n) (quiet : Nat) (now : Time) :
    c.causeDisappears n quiet now = c.setRecord n ⟨false, (c.record n).latched⟩ := by
  cases n with
  | a =>
    by_cases hq : c.quality = .fault
    · have hb : c.recB.cause = true := by simpa [Channel.LastCause, hq] using h
      simp [Channel.causeDisappears, Channel.setRecord, Channel.record, Channel.countCause, hq, hb]
    · simp [Channel.causeDisappears, Channel.setRecord, Channel.record, hq]
  | b =>
    by_cases hq : c.quality = .fault
    · have ha : c.recA.cause = true := by simpa [Channel.LastCause, hq] using h
      simp [Channel.causeDisappears, Channel.setRecord, Channel.record, Channel.countCause, hq, ha]
    · simp [Channel.causeDisappears, Channel.setRecord, Channel.record, hq]
  | r => rfl

theorem Channel.setRecord_rest (c : Channel) (n : Line) (r : LineRecord) :
    (c.setRecord n r).count = c.count ∧ (c.setRecord n r).epoch = c.epoch ∧ (c.setRecord n r).lastA = c.lastA ∧
      (c.setRecord n r).lastB = c.lastB ∧ (c.setRecord n r).quality = c.quality ∧ (c.setRecord n r).timer = c.timer := by
  cases n <;> simp [Channel.setRecord]

theorem Channel.record_with (c : Channel) (q : Quality) (t : Option Time) (n : Line) :
    Channel.record { c with quality := q, timer := t } n = c.record n := by
  cases n <;> rfl

end Sys2Proof.Machine

namespace Sys2Proof

-- one declaration after the other: fewer threads at a time
set_option Elab.async false

open Machine

/-- Settles O58, by the channel's own account of a cause that appears, of one that disappears and of an acknowledgement. -/
theorem causesAndAutoAck : Obligations.CausesAndAutoAck := by
  intro dt s i now old
  refine ⟨fun n => ?_, fun expiry ht hr hd => ?_⟩
  · intro watched
    have hwatched : (s.elapse dt).monitored i n = watched := by simp [State.monitored_eq, watched]
    refine ⟨fun hpin => ⟨if watched then old.causeAppears n else old, ?_, fun hw => ?_, fun hw => ?_⟩,
      fun hpin => ⟨if watched then old.causeDisappears n s.image.quietTime now else old, ?_, fun hw => ?_, fun hw => ?_⟩⟩
    · rw [exec_eq_effect]
      show Host.Outcome.next ((s.elapse dt).causeAppears i n).settle = _
      rw [State.causeAppears_eq (by simpa using hpin), hwatched]
      simp [old]
    · rw [hw]; rfl
    · rw [if_pos hw]
      exact old.causeAppears_spec n
    · rw [exec_eq_effect]
      show Host.Outcome.next ((s.elapse dt).causeDisappears i n).settle = _
      rw [State.causeDisappears_eq (by simpa using hpin), hwatched]
      simp [old, now]
    · rw [hw]; rfl
    · rw [if_pos hw]
      obtain ⟨hcount, hepoch, hlastA, hlastB, hquality, htimer⟩ :=
        old.setRecord_rest n ⟨false, (old.record n).latched⟩
      by_cases hlast : old.LastCause n
      · rw [Channel.causeDisappears_last hlast]
        refine ⟨?_, fun n' hn => ?_, hcount, hepoch, hlastA, hlastB, ?_⟩
        · rw [Channel.record_with, Channel.record_setRecord, if_pos rfl]
        · rw [Channel.record_with, Channel.record_setRecord, if_neg hn]
        · unfold Channel.LastCause at hlast
          rw [if_pos hlast]
          exact ⟨rfl, rfl⟩
      · rw [Channel.causeDisappears_other hlast]
        refine ⟨?_, fun n' hn => ?_, hcount, hepoch, hlastA, hlastB, ?_⟩
        · rw [Channel.record_setRecord, if_pos rfl]
        · rw [Channel.record_setRecord, if_neg hn]
        · unfold Channel.LastCause at hlast
          rw [if_neg hlast]
          exact ⟨hquality, htimer⟩
  · refine ⟨old.acknowledge, ?_, rfl, rfl, rfl, rfl, rfl, rfl, fun n => ?_⟩
    · rw [exec_eq_effect]
      show Host.Outcome.next ((s.elapse dt).autoAck i).settle = _
      rw [State.autoAck_eq (expiry := expiry) (by simpa [old] using ht) (by simpa using hr) hd]
      simp [old]
    · cases n <;> exact LineRecord.clear_eq _

/-- Settles O55: each event's guard is met, and the entry it names is the only one with its own name. -/
theorem entryAndStrobeEvents : Obligations.EntryAndStrobeEvents := by
  intro dt s due
  refine ⟨fun tag e he hs => ⟨fun ho hd => ?_, fun o d ho hc hod hd hroom => ?_, fun hp hd => ?_⟩, fun d hp hd => ?_,
    fun d hp hd => ?_⟩
  · have hmem : e ∈ (s.elapse dt).cap.table := by simpa using (State.tagged?_eq_some he).1
    rw [exec_eq_effect]
    show Host.Outcome.next ((s.elapse dt).retentionEnd tag).settle = _
    rw [State.retentionEnd_eq (by simpa using he) ho (by simpa using hd), State.freeEntry_eq (by simpa using hs) hmem]
    simp
  · have hmem : e ∈ (s.elapse dt).cap.table := by simpa using (State.tagged?_eq_some he).1
    rw [exec_eq_effect]
    show Host.Outcome.next ((s.elapse dt).collectionDeadline tag).settle = _
    rw [State.collectionDeadline_eq (by simpa using hs) (by simpa using he) ho hc hod (by simpa using hd),
      State.beginClosing_of_room (by simpa using hroom), State.onEntry, State.map_uid_at (by simpa using hs) hmem]
    simp [State.withLink, LinkUnit.enqueue, Entry.onOrigin, Origin.closing, ho]
  · have hmem : e ∈ (s.elapse dt).cap.table := by simpa using (State.tagged?_eq_some he).1
    rw [exec_eq_effect]
    show Host.Outcome.next ((s.elapse dt).strobeInstant tag).settle = _
    rw [State.strobeInstant_eq (by simpa using he) hp (by simpa using hd), State.onEntry,
      State.map_uid_at (by simpa using hs) hmem]
    simp [State.pulse, Strobe.start, addTicks, Config.ticksPerUs]
  · rw [exec_eq_effect]
    show Host.Outcome.next ((s.elapse dt).strobePulseEnd 0).settle = _
    rw [State.strobePulseEnd_eq (j := 0) (d := d) (by simpa [State.strobe] using hp) hd]
    simp [State.setStrobe]
  · rw [exec_eq_effect]
    show Host.Outcome.next ((s.elapse dt).strobePulseEnd 1).settle = _
    rw [State.strobePulseEnd_eq (j := 1) (d := d) (by simpa [State.strobe] using hp) hd]
    simp [State.setStrobe]

end Sys2Proof

/-!
PROOFS. The trigger unit: what a change of the watched levels makes of a PATTERN term, the order of the fires, the digital
inputs, the hold-off and the encoder step.
-/

namespace Sys2Proof.Machine

-- one declaration after the other: fewer threads at a time
set_option Elab.async false

/-! ### The order of the fires -/

/-- R125, assumption 15: the fires named in `first` in its order, then the rest by number, one list after the other. -/
theorem fireOrder_filter (first : List TermNo) (p q : TermNo → Bool) :
    fireOrder first (four.filter p ++ four.filter q) = (first.eraseDups.filter fun k => p k || q k) ++
      ((four.filter fun k => p k && !first.contains k) ++ four.filter fun k => q k && !first.contains k) := by
  have hcontains : ∀ k, (four.filter p ++ four.filter q).contains k = (p k || q k) := fun k => by
    rw [Bool.eq_iff_iff]
    simp [mem_four]
  simp only [fireOrder, hcontains, List.filter_append, List.filter_filter, Bool.and_comm]

/-! ### A PATTERN term -/

theorem Condition.patternChange_unchanged {before after signals : BitVec 16} (required : BitVec 16)
    (h : (before ^^^ after) &&& signals = 0) : (Condition.pattern signals required).patternChange before after = Option.none :=
  if_pos h

theorem Condition.patternChange_changed {before after signals : BitVec 16} (required : BitVec 16)
    (h : (before ^^^ after) &&& signals ≠ 0) : (Condition.pattern signals required).patternChange before after =
      some (decide ((after ^^^ required) &&& signals = 0)) :=
  if_neg h

/-- R120: a judged, ARMED PATTERN term fires at the change. -/
def State.patternRises (s : State) (before after signals required : BitVec 16) (k : TermNo) : Bool :=
  s.judged (s.trig.terms.get k) && decide ((s.trig.terms.get k).state = .armed) &&
    (decide ((before ^^^ after) &&& signals ≠ 0 ∧ (after ^^^ required) &&& signals = 0) && (s.trig.terms.get k).ready)

theorem State.patternTerm_pattern {s : State} {before after signals required : BitVec 16} {k : TermNo}
    (hc : (s.image.terms.get k).condition = .pattern signals required) : s.patternTerm before after k =
      { s.trig.terms.get k with
        ready := if s.judged (s.trig.terms.get k) = true ∧ (before ^^^ after) &&& signals ≠ 0 then
          decide ((after ^^^ required) &&& signals ≠ 0) else (s.trig.terms.get k).ready
        state := if s.patternRises before after signals required k then
          (s.image.terms.get k).afterFire s.time.localTime else (s.trig.terms.get k).state } := by
  simp only [State.patternTerm, State.patternRises, hc]
  by_cases hchange : (before ^^^ after) &&& signals = 0
  · simp [Condition.patternChange_unchanged required hchange, hchange]
  · simp only [Condition.patternChange_changed required hchange, ne_eq, hchange, not_false_eq_true, and_true, true_and]
    cases hj : s.judged (s.trig.terms.get k)
    · simp
    · by_cases hfound : (after ^^^ required) &&& signals = 0
      · cases hready : (s.trig.terms.get k).ready <;>
          by_cases harmed : (s.trig.terms.get k).state = .armed <;> simp [hfound, Term.found, hready, harmed]
      · simp only [hfound, decide_false, Term.found, Bool.not_false, if_true, Bool.false_and, Bool.and_false,
          Bool.false_eq_true, if_false, not_false_eq_true, decide_true]

theorem State.patternFires_eq (s : State) (before after : BitVec 16) (rises : TermNo → Bool)
    (hp : ∀ k signals required, (s.image.terms.get k).condition = .pattern signals required →
      rises k = s.patternRises before after signals required k)
    (ho : ∀ k, (∀ signals required, (s.image.terms.get k).condition ≠ .pattern signals required) → rises k = false) :
    s.patternFires before after = four.filter rises := by
  refine List.filter_congr fun k _ => ?_
  cases hc : (s.image.terms.get k).condition with
  | none => rw [ho k (by simp [hc])]; simp [Condition.patternChange]
  | pattern signals required =>
    rw [hp k signals required hc]
    by_cases hchange : (before ^^^ after) &&& signals = 0
    · simp [Condition.patternChange_unchanged required hchange, State.patternRises, hchange]
    · simp only [Condition.patternChange_changed required hchange, State.patternRises, ne_eq, hchange, not_false_eq_true,
        true_and, Term.risingFires]
      grind
  | cross chan direction threshold => rw [ho k (by simp [hc])]; simp [Condition.patternChange]

theorem State.patternTerm_other {s : State} {before after : BitVec 16} {k : TermNo}
    (hc : ∀ signals required, (s.image.terms.get k).condition ≠ .pattern signals required) :
    s.patternTerm before after k = s.trig.terms.get k := by
  cases h : (s.image.terms.get k).condition with
  | none => simp [State.patternTerm, h, Condition.patternChange]
  | pattern signals required => exact absurd h (hc signals required)
  | cross chan direction threshold => simp [State.patternTerm, h, Condition.patternChange]

/-! ### The digital inputs and the hold-off -/

theorem State.endedRun_eq {s : State} {i : InputNo} {x : FilterRun} {rest : List FilterRun} (hr : s.running = true)
    (hf : s.trig.filters.get i = x :: rest)
    (hd : later (x.start + BitVec.ofNat 48 (s.image.filters.get i)) s.time.localTime = false) :
    s.endedRun i = some x := by
  have hdue : s.runDue i x = true := by rw [State.runDue, State.reached_eq, addTicks, hd]; rfl
  simp only [State.endedRun, hf, hr, hdue, Bool.and_self, if_true]

theorem State.filteredChange_eq {s : State} {i : InputNo} {x : FilterRun} {first : List TermNo}
    (hx : s.endedRun i = some x) : s.filteredChange i first =
      ((s.takeRun i x).withTerms ((s.takeRun i x).patternTerm s.trig.levels (s.takeRun i x).trig.levels)).takeFires x.start
        (fireOrder first ((s.takeRun i x).patternFires s.trig.levels (s.takeRun i x).trig.levels)) := by
  rw [State.filteredChange, hx]

theorem State.rawChange_eq {s : State} {i : InputNo} {level : Bool} (hr : s.running = true)
    (hne : s.pins.inputs.get i ≠ level) : s.rawChange i level = { s with
      pins := { s.pins with inputs := s.pins.inputs.set i level }
      trig := { s.trig with filters := s.trig.filters.set i (((s.trig.filters.get i).filter fun x =>
        !later (x.start + BitVec.ofNat 48 (s.image.filters.get i)) s.time.localTime) ++ [⟨level, s.time.localTime⟩]) } } := by
  rw [State.rawChange, if_neg hne]
  exact if_pos hr

theorem State.holdoffExpiry_eq {s : State} {k : TermNo} {expiry : Time} (hr : s.running = true)
    (hk : (s.trig.terms.get k).state = .holdoff expiry) (hd : later expiry s.time.localTime = false) :
    s.holdoffExpiry k = s.onTerm k fun t => { t with state := .armed } := by
  have hdue : s.holdoffDue k = true := by
    rw [State.holdoffDue, hk]
    simp [hr, State.reached_eq, hd]
  rw [State.holdoffExpiry, if_pos hdue]

theorem fireOrder_one (first : List TermNo) (p : TermNo → Bool) : fireOrder first (four.filter p) =
    (first.eraseDups.filter p) ++ four.filter fun k => p k && !first.contains k := by
  have h := fireOrder_filter first p fun _ => false
  simpa using h

theorem State.judged_eq {s : State} (hr : s.running = true) (t : Term) :
    s.judged t = (decide (s.ctrl.lifecycle = .joined) && !t.blocked) := by
  have hreleased : s.released = true := by
    rw [State.running, Bool.and_eq_true] at hr
    exact hr.1
  rw [State.judged, State.joined, hreleased, Bool.true_and]

end Sys2Proof.Machine

namespace Sys2Proof

-- one declaration after the other: fewer threads at a time
set_option Elab.async false

open Machine

/-- Settles O59, by what the change of the levels makes of each term. -/
theorem inputsAndHoldoff : Obligations.InputsAndHoldoff := by
  intro dt s hr now
  have hr' : (s.elapse dt).running = true := by simpa using hr
  refine ⟨fun i level hne => ?_, fun i first x rest hf hd => ?_, fun k expiry hk hd => ?_⟩
  · intro ended
    rw [exec_eq_effect]
    show Host.Outcome.next ((s.elapse dt).rawChange i level).settle = _
    rw [State.rawChange_eq hr' (by simpa using hne)]
    simp [ended, now]
  · intro inputs before after judged fires terms order
    rw [exec_eq_effect]
    show Host.Outcome.next ((s.elapse dt).filteredChange i first).settle = _
    rw [State.filteredChange_eq (State.endedRun_eq hr' (by simpa using hf) (by simpa using hd))]
    have htaken : (s.elapse dt).takeRun i x = { s.elapse dt with
        trig := { s.trig with inputs := inputs, filters := s.trig.filters.set i rest } } := by
      simp [State.takeRun, hf, inputs, Signal.take]
    rw [htaken]
    generalize hu : ({ s.elapse dt with
      trig := { s.trig with inputs := inputs, filters := s.trig.filters.set i rest } } : State) = u
    have hur : u.running = true := by rw [← hu]; exact hr'
    have himage : u.image = s.image := by rw [← hu]; simp
    have hlevels : u.trig.levels = after := by rw [← hu]; rfl
    have hterm : ∀ k, u.trig.terms.get k = s.trig.terms.get k := fun k => by rw [← hu]
    have hjudged : ∀ k, u.judged (s.trig.terms.get k) = judged k := fun k => by
      rw [State.judged_eq hur, ← hu]
      simp [judged]
    have hnow : u.time.localTime = now := by rw [← hu]
    have hbefore : (s.elapse dt).trig.levels = before := by simp [before]
    have hpattern : ∀ k signals required, (s.image.terms.get k).condition = .pattern signals required →
        fires k = u.patternRises before after signals required k := fun k signals required hc => by
      simp only [fires, State.patternRises, hc, hterm, hjudged]
    have hother : ∀ k, (∀ signals required, (s.image.terms.get k).condition ≠ .pattern signals required) →
        fires k = false := fun k hc => by
      cases h : (s.image.terms.get k).condition with
      | none => simp [fires, h]
      | pattern signals required => exact absurd h (hc signals required)
      | cross chan direction threshold => simp [fires, h]
    have hterms : Four.build (u.patternTerm before after) = terms := by
      refine congrArg Four.build (funext fun k => ?_)
      cases hc : (s.image.terms.get k).condition with
      | none => rw [State.patternTerm_other (by simp [himage, hc]), hterm]; simp [fires, hc]
      | pattern signals required =>
        rw [State.patternTerm_pattern (by rw [himage, hc]), ← hpattern k signals required hc, hterm, hjudged, himage, hnow]
        simp only [hc, TermConfig.afterFire]
        rfl
      | cross chan direction threshold => rw [State.patternTerm_other (by simp [himage, hc]), hterm]; simp [fires, hc]
    rw [hbefore, hlevels, u.patternFires_eq before after fires (by simpa only [himage] using hpattern)
      (by simpa only [himage] using hother), fireOrder_one, State.withTerms, hterms]
    rw [← hu]
  · rw [exec_eq_effect]
    show Host.Outcome.next ((s.elapse dt).holdoffExpiry k).settle = _
    rw [State.holdoffExpiry_eq (expiry := expiry) hr' (by simpa using hk) hd]
    simp [State.onTerm]

end Sys2Proof

/-!
PROOFS. The encoder step: the decoder's move, the crossings, and the fires of both kinds of term.
-/

namespace Sys2Proof.Machine

-- one declaration after the other: fewer threads at a time
set_option Elab.async false

/-! ### The decoder -/

/-- R98: the place of an (A, B) pair in the counting sequence. -/
def quadPlace (a b : Bool) : Nat := if a then (if b then 2 else 1) else if b then 3 else 0

/-- R98: how far a QUAD4 step goes round in the counting sequence. -/
def quadTurn (lastA lastB a b : Bool) : Nat := (quadPlace a b + 4 - quadPlace lastA lastB) % 4

/-- R98, R100: the change of the count by the mode's rule. -/
def countEdge (m : ChannelMode) (lastA lastB a b : Bool) : Int :=
  if m = .quad4 then (if quadTurn lastA lastB a b = 1 then 1 else if quadTurn lastA lastB a b = 3 then -1 else 0)
  else if lastA = false ∧ a = true then (if lastB then 1 else -1) else 0

/-- What a move does to the count. -/
def Move.edge : Move → Int
  | .none | .skip => 0
  | .up => 1
  | .down => -1

theorem ChannelMode.move_edge : ∀ (m : ChannelMode) (lastA lastB a b : Bool), m ≠ .off →
    (m.move lastA lastB a b).edge = countEdge m lastA lastB a b := by
  intro m
  cases m <;> decide

theorem ChannelMode.move_skip : ∀ (m : ChannelMode) (lastA lastB a b : Bool),
    m.move lastA lastB a b = .skip ↔ m = .quad4 ∧ quadTurn lastA lastB a b = 2 := by
  intro m
  cases m <;> decide

theorem Channel.bump_eq (c : Channel) (d : Count) :
    c.bump d = if c.quality = .fault then c else { c with count := c.count + d } := by
  cases h : c.quality <;> simp [Channel.bump, h]

theorem Channel.skip_eq (c : Channel) (quiet : Nat) (now : Time) : c.skip quiet now =
    if c.quality = .fault then c else { c with quality := .unconfirmed, timer := startTimer quiet now } := by
  cases h : c.quality <;> simp [Channel.skip, h]

theorem Channel.decode_of_move {c : Channel} {m : ChannelMode} {a b : Bool} {v : Move}
    (hv : m.move c.lastA c.lastB a b = v) (quiet : Nat) (now : Time) : c.decode m a b quiet now = { c with
      count := if c.quality = .fault then c.count else c.count + BitVec.ofInt 32 v.edge
      quality := if v = .skip ∧ c.quality ≠ .fault then .unconfirmed else c.quality
      timer := if v = .skip ∧ c.quality ≠ .fault then startTimer quiet now else c.timer
      lastA := a, lastB := b } := by
  rw [Channel.decode, hv]
  by_cases hq : c.quality = .fault
  · cases v <;> simp [Channel.bump_eq, Channel.skip_eq, hq]
  · cases v <;> simp [Channel.bump_eq, Channel.skip_eq, Move.edge, hq]

/-! ### The crossings -/

theorem crosses_self (d : Direction) (threshold c : Count) : crosses d threshold c c = false := by
  cases d <;> simp [crosses, BitVec.slt, BitVec.sle]

theorem crosses_eq (d : Direction) (threshold before after : Count) : crosses d threshold before after =
    ((decide (before.toInt < threshold.toInt ∧ threshold.toInt ≤ after.toInt) && decide (d ≠ .down)) ||
      (decide (threshold.toInt ≤ before.toInt ∧ after.toInt < threshold.toInt) && decide (d ≠ .up))) := by
  cases d <;> simp [crosses, BitVec.slt, BitVec.sle]

theorem State.crossFires_self (s : State) (i : Chan) (c : Count) (k : TermNo) : s.crossFires i c c k = false := by
  have h : (s.image.terms.get k).condition.crossed i c c = false := by
    cases (s.image.terms.get k).condition <;> simp [Condition.crossed, crosses_self]
  rw [State.crossFires, h, Bool.and_false]

theorem State.withTerms_self (s : State) {f : TermNo → Term} (h : ∀ k, f k = s.trig.terms.get k) : s.withTerms f = s := by
  have hf : Four.build f = s.trig.terms := Four.ext_get fun k => by rw [Four.get_build, h]
  rw [State.withTerms, hf]

/-- R97: the step with the CROSS terms judged in every case; without a counting edge none of them fires. -/
theorem State.stepTaken_eq (s : State) (i : Chan) (l : Lines) (first : List TermNo) {t u : State}
    (ht : t = s.stepChannel i l) (hu : u = t.withTerms (t.patternTerm s.trig.levels t.trig.levels)) :
    s.stepTaken i l first = (u.withTerms (u.crossTerm i (s.chans.get i).count (t.chans.get i).count)).takeFires
      s.time.localTime (fireOrder first (t.patternFires s.trig.levels t.trig.levels ++
        four.filter (u.crossFires i (s.chans.get i).count (t.chans.get i).count))) := by
  subst hu ht
  unfold State.stepTaken
  simp only []
  split
  next heq =>
    have hcount : (s.chans.get i).count = ((s.stepChannel i l).chans.get i).count := heq
    have hcross : ∀ (u : State) k, u.crossFires i (s.chans.get i).count ((s.stepChannel i l).chans.get i).count k = false :=
      fun u k => by rw [← hcount, State.crossFires_self]
    have hsame : ∀ u : State, u.withTerms (u.crossTerm i (s.chans.get i).count
        ((s.stepChannel i l).chans.get i).count) = u := fun u =>
      u.withTerms_self fun k => by rw [State.crossTerm, if_neg (by simp [hcross])]
    have hnone : ∀ u : State, four.filter (u.crossFires i (s.chans.get i).count ((s.stepChannel i l).chans.get i).count) =
        [] := fun u => List.filter_eq_nil_iff.mpr fun k _ => by simp [hcross]
    rw [hsame, hnone, List.append_nil]
    rfl
  next hne => rfl

/-- R97: the levels of a running, active channel's lines change. -/
theorem State.encoderStep_eq {s : State} {i : Chan} {l : Lines} {first : List TermNo} (hr : s.running = true)
    (hm : s.image.modes.get i ≠ .off) (hl : (s.trig.chans.get i).lines ≠ l) :
    s.encoderStep i l first = (s.setLevelPins i l).stepTaken i l first := by
  have hp : (s.setLevelPins i l).running = true := hr
  have ha : (s.setLevelPins i l).active i = true := decide_eq_true hm
  have hlines : decide (((s.setLevelPins i l).trig.chans.get i).lines ≠ l) = true := decide_eq_true hl
  rw [State.encoderStep, hp, ha]
  exact if_pos hlines

/-- R125, assumption 15: the order of the fires of two kinds. -/
theorem fireOrder_kinds (first : List TermNo) (fires crossing : TermNo → Bool) :
    fireOrder first ((four.filter fun k => fires k && !crossing k) ++ four.filter fun k => fires k && crossing k) =
      first.eraseDups.filter fires ++ (four.filter fun k => fires k && !first.contains k && !crossing k) ++
        four.filter fun k => fires k && !first.contains k && crossing k := by
  have hsplit : ∀ k, (fires k && !crossing k || fires k && crossing k) = fires k := fun k => by
    cases fires k <;> cases crossing k <;> rfl
  have hcomm : ∀ k x, (fires k && x && !first.contains k) = (fires k && !first.contains k && x) := fun k x =>
    Bool.and_right_comm _ _ _
  rw [fireOrder_filter]
  simp only [hsplit, hcomm, List.append_assoc]

end Sys2Proof.Machine

namespace Sys2Proof

-- one declaration after the other: fewer threads at a time
set_option Elab.async false

open Machine

/-- Settles O57, by what the step makes of the channel and of each term, which is of one kind only. -/
theorem encoderStepTaken : Obligations.EncoderStepTaken := by
  intro dt s i a b r first hr hm hl now old place turn edge skip new take signals chans before after judged fires terms
    crossing order
  have hedge : edge = countEdge (s.image.modes.get i) old.lastA old.lastB a b := rfl
  have hnew : old.decode (s.image.modes.get i) a b s.image.quietTime now = new := by
    rw [Channel.decode_of_move rfl, ChannelMode.move_edge _ _ _ _ _ hm]
    have hskip : (skip = true) = ((s.image.modes.get i = .quad4 ∧ quadTurn old.lastA old.lastB a b = 2) ∧
        old.quality ≠ .fault) := by
      simp only [skip, decide_eq_true_eq, and_assoc]
      rfl
    simp only [ChannelMode.move_skip, ← hedge, ← hskip]
    rfl
  let p : State := { s with
    time := (s.elapse dt).time, link := (s.elapse dt).link
    pins := { s.pins with levels := s.pins.levels.set i ⟨a, b, r⟩ } }
  let t : State := { p with trig := { s.trig with chans := chans }, chans := s.chans.set i new }
  have hexec : exec (.encoderStep dt i a b r first) s = .next (p.stepTaken i ⟨a, b, r⟩ first).settle := by
    have hpins : (s.elapse dt).setLevelPins i ⟨a, b, r⟩ = p := by simp [State.setLevelPins, p]
    rw [exec_eq_effect]
    show Host.Outcome.next ((s.elapse dt).encoderStep i ⟨a, b, r⟩ first).settle = _
    rw [State.encoderStep_eq (by simpa using hr) (by simpa using hm) (by simpa using hl), hpins]
  have htaken : p.stepChannel i ⟨a, b, r⟩ = t := by
    simp only [t, ← hnew]
    rfl
  have htr : t.running = true := hr
  have himage : t.image = s.image := rfl
  have hlevels : t.trig.levels = after := rfl
  have hterm : ∀ k, t.trig.terms.get k = s.trig.terms.get k := fun k => rfl
  have hjudged : ∀ k, t.judged (s.trig.terms.get k) = judged k := fun k => by
    rw [State.judged_eq htr]
  have hrises : ∀ k signals required, (s.image.terms.get k).condition = .pattern signals required →
      (fires k && !crossing k) = t.patternRises before after signals required k := fun k signals required hc => by
    simp only [fires, crossing, State.patternRises, hc, hterm, hjudged, Bool.not_false, Bool.and_true]
  have hpatternFires : t.patternFires before after = four.filter fun k => fires k && !crossing k := by
    refine t.patternFires_eq before after _ (by simpa only [himage] using hrises) fun k hk => ?_
    cases hc : (s.image.terms.get k).condition with
    | none => simp [fires, hc]
    | pattern signals required => exact absurd (by rw [himage, hc]) (hk signals required)
    | cross chan direction threshold => simp [crossing, hc]
  let u : State := t.withTerms (t.patternTerm before after)
  have hcrossFires : ∀ k, u.crossFires i old.count new.count k = (fires k && crossing k) := fun k => by
    have huimage : u.image = s.image := himage
    have hujudged : ∀ x, u.judged x = t.judged x := fun x => rfl
    have huterm : u.trig.terms.get k = t.patternTerm before after k := Four.get_build _ k
    simp only [State.crossFires, huimage, hujudged, huterm]
    cases hc : (s.image.terms.get k).condition with
    | none => simp [Condition.crossed, crossing, hc]
    | pattern signals required => simp [Condition.crossed, crossing, hc]
    | cross chan direction threshold =>
      rw [State.patternTerm_other (by simp [himage, hc]), hterm, hjudged]
      simp only [Condition.crossed, crossing, fires, hc, crosses_eq, Bool.and_true]
  have hterms : Four.build (u.crossTerm i old.count new.count) = terms := by
    refine congrArg Four.build (funext fun k => ?_)
    have huimage : u.image = s.image := himage
    have hunow : u.time.localTime = now := rfl
    have huterm : u.trig.terms.get k = t.patternTerm before after k := Four.get_build _ k
    simp only [State.crossTerm, hcrossFires, huimage, hunow, huterm]
    cases hc : (s.image.terms.get k).condition with
    | none =>
      rw [State.patternTerm_other (by simp [himage, hc]), hterm]
      simp [fires, crossing, hc]
    | pattern signals required =>
      rw [State.patternTerm_pattern (by rw [himage, hc]), ← hrises k signals required hc, hterm, hjudged, himage]
      simp only [crossing, hc, TermConfig.afterFire, Bool.not_false, Bool.and_true, Bool.and_false, Bool.false_eq_true,
        if_false]
      rfl
    | cross chan direction threshold =>
      rw [State.patternTerm_other (by simp [himage, hc]), hterm]
      simp only [crossing, hc, TermConfig.afterFire, Bool.and_true]
      split <;> rfl
  have horder : fireOrder first (t.patternFires before after ++ four.filter (u.crossFires i old.count new.count)) =
      order := by
    rw [hpatternFires, show u.crossFires i old.count new.count = fun k => fires k && crossing k from funext hcrossFires]
    exact fireOrder_kinds first fires crossing
  have hcount : (t.chans.get i).count = new.count := by simp [t]
  rw [hexec, p.stepTaken_eq i ⟨a, b, r⟩ first htaken.symm rfl]
  have hwith : u.withTerms (u.crossTerm i old.count new.count) = { t with trig := { t.trig with terms := terms } } := by
    rw [State.withTerms, hterms]
    rfl
  have hall : (u.withTerms (u.crossTerm i old.count (t.chans.get i).count)).takeFires now
      (fireOrder first (t.patternFires before after ++ four.filter (u.crossFires i old.count (t.chans.get i).count))) =
      State.takeFires { t with trig := { t.trig with terms := terms } } now order := by
    rw [hcount, horder, hwith]
  refine congrArg (fun x : State => Host.Outcome.next x.settle) (hall.trans ?_)
  simp [t, p]

end Sys2Proof

/-!
PROOFS. The walk over the presets: which presets it applies, and what each does to its channels.
-/

namespace Sys2Proof.Machine

-- one declaration after the other: fewer threads at a time
set_option Elab.async false

/-- R64: the preset at place `k` is due and overlaps neither `cover` nor any preset before it. -/
def sweeps (due : Preset → Bool) (cover : ChanSet) (l : List Preset) (k : Nat) : Bool :=
  l[k]?.any fun q => due q && decide (q.chans &&& cover = 0) && (l.take k).all fun p => decide (p.chans &&& q.chans = 0)

theorem sweeps_zero (due : Preset → Bool) (cover : ChanSet) (p : Preset) (l : List Preset) :
    sweeps due cover (p :: l) 0 = (due p && decide (p.chans &&& cover = 0)) := by
  simp [sweeps]

theorem and_or_eq_zero (x a b : ChanSet) : x &&& (a ||| b) = 0 ↔ x &&& a = 0 ∧ b &&& x = 0 := by
  simp only [BitVec.eq_of_getLsbD_eq_iff, BitVec.getLsbD_and, BitVec.getLsbD_or, BitVec.ofNat_eq_ofNat, BitVec.getLsbD_zero]
  grind

theorem sweeps_succ (due : Preset → Bool) (cover : ChanSet) (p : Preset) (l : List Preset) (k : Nat) :
    sweeps due cover (p :: l) (k + 1) = sweeps due (cover ||| p.chans) l k := by
  have h : ∀ q : Preset, decide (q.chans &&& (cover ||| p.chans) = 0) =
      (decide (q.chans &&& cover = 0) && decide (p.chans &&& q.chans = 0)) := fun q => by
    rw [decide_eq_decide.mpr (and_or_eq_zero _ _ _), Bool.decide_and]
  simp only [sweeps, List.getElem?_cons_succ, List.take_succ_cons, List.all_cons, h, Bool.and_assoc]

/-- R64: a preset that the walk applies shares no channel with what was touched before. -/
theorem not_mem_of_sweeps {due : Preset → Bool} {cover : ChanSet} {l : List Preset} {k : Nat} {q : Preset} {i : Chan}
    (hq : l[k]? = some q) (hs : sweeps due cover l k = true) (hi : q.chans.getLsbD i.val = true) :
    cover.getLsbD i.val = false := by
  simp only [sweeps, hq, Option.any_some, Bool.and_eq_true, decide_eq_true_eq] at hs
  have h := congrArg (fun x => x.getLsbD i.val) hs.1.2
  simpa [hi] using h

/-- R64: the presets that stay in the list. -/
def unswept (due : Preset → Bool) (cover : ChanSet) (l : List Preset) : List Preset :=
  (List.range l.length).filterMap fun k => if sweeps due cover l k then none else l[k]?

theorem unswept_cons (due : Preset → Bool) (cover : ChanSet) (p : Preset) (l : List Preset) :
    unswept due cover (p :: l) = (if due p && decide (p.chans &&& cover = 0) then [] else [p]) ++
      unswept due (cover ||| p.chans) l := by
  rw [unswept, List.length_cons, List.range_succ_eq_map, List.filterMap_cons, List.filterMap_map]
  simp only [sweeps_zero, Function.comp_def, Nat.succ_eq_add_one, sweeps_succ, List.getElem?_cons_succ,
    List.getElem?_cons_zero]
  cases h : due p && decide (p.chans &&& cover = 0) <;> simp [unswept]

/-- R64: a channel is reached by the preset at place `k`. -/
def sweptAt (due : Preset → Bool) (cover : ChanSet) (l : List Preset) (i : Chan) (k : Nat) : Bool :=
  sweeps due cover l k && l[k]?.any fun q => q.chans.getLsbD i.val

/-- R64, R66: what the walk over `l` makes of the state, where `cover` is what it must not overlap. -/
structure State.Walked (s t : State) (due : Preset → Bool) (cover : ChanSet) (kept l : List Preset) : Prop where
  rest : t = { s with
    chans := t.chans
    hist := { s.hist with presets := kept ++ unswept due cover l, touched := t.hist.touched } }
  touched : ∀ i : Chan, t.hist.touched.getLsbD i.val =
    (s.hist.touched.getLsbD i.val || (List.range l.length).any (sweptAt due cover l i))
  same : ∀ i : Chan, (∀ k, sweptAt due cover l i k = false) → t.chans.get i = s.chans.get i
  preset : ∀ (i : Chan) (k : Nat) (q : Preset), l[k]? = some q → sweptAt due cover l i k = true →
    t.chans.get i = (s.chans.get i).preset q.value

theorem sweptAt_zero (due : Preset → Bool) (cover : ChanSet) (p : Preset) (l : List Preset) (i : Chan) :
    sweptAt due cover (p :: l) i 0 = (due p && decide (p.chans &&& cover = 0) && p.chans.getLsbD i.val) := by
  rw [sweptAt, sweeps_zero]
  rfl

theorem sweptAt_succ (due : Preset → Bool) (cover : ChanSet) (p : Preset) (l : List Preset) (i : Chan) (k : Nat) :
    sweptAt due cover (p :: l) i (k + 1) = sweptAt due (cover ||| p.chans) l i k := by
  rw [sweptAt, sweeps_succ]
  rfl

theorem not_sweptAt_of_mem {due : Preset → Bool} {cover : ChanSet} {l : List Preset} {i : Chan}
    (hi : cover.getLsbD i.val = true) (k : Nat) : sweptAt due cover l i k = false := by
  cases hq : l[k]? with
  | none => simp [sweptAt, hq]
  | some q =>
    by_contra h
    obtain ⟨hs, hqi⟩ : sweeps due cover l k = true ∧ q.chans.getLsbD i.val = true := by simpa [sweptAt, hq] using h
    exact absurd (not_mem_of_sweeps hq hs hqi) (by simp [hi])

theorem any_sweptAt_cons (due : Preset → Bool) (cover : ChanSet) (p : Preset) (l : List Preset) (i : Chan) :
    (List.range (p :: l).length).any (sweptAt due cover (p :: l) i) =
      ((due p && decide (p.chans &&& cover = 0) && p.chans.getLsbD i.val) ||
        (List.range l.length).any (sweptAt due (cover ||| p.chans) l i)) := by
  rw [List.length_cons, List.range_succ_eq_map, List.any_cons, List.any_map, sweptAt_zero]
  simp only [Function.comp_def, Nat.succ_eq_add_one, sweptAt_succ]

theorem overlaps_or (x a b : ChanSet) : overlaps x (a ||| b) = (overlaps x a || overlaps x b) := by
  rw [Bool.eq_iff_iff, Bool.or_eq_true]
  simp only [overlaps, decide_eq_true_eq, ne_eq, and_or_eq_zero, BitVec.and_comm b x]
  tauto

theorem overlaps_eq (a b : ChanSet) : overlaps a b = !decide (a &&& b = 0) := by simp [overlaps]

theorem State.applyPreset_chans (s : State) (p : Preset) (i : Chan) : (s.applyPreset p).chans.get i =
    if p.chans.getLsbD i.val then (s.chans.get i).preset p.value else s.chans.get i := by
  rw [State.applyPreset, State.presetChannels, Four.get_build]

theorem State.applyPreset_holds (s : State) (p : Preset) (kept : List Preset) (q : Preset) :
    (s.applyPreset p).holds kept q = (s.holds kept q || overlaps q.chans p.chans) := by
  show (overlaps q.chans (s.hist.touched ||| p.chans) || _) = _
  rw [overlaps_or, State.holds, Bool.or_right_comm]

theorem State.holds_append (s : State) (p : Preset) (kept : List Preset) (q : Preset) :
    s.holds (kept ++ [p]) q = (s.holds kept q || overlaps q.chans p.chans) := by
  simp [State.holds, Bool.or_assoc]

/-- R64: a preset that stays holds back what comes after it on its channels. -/
theorem State.Walked.keep {s t : State} {due : Preset → Bool} {cover : ChanSet} {kept l : List Preset} {p : Preset}
    (hp : (due p && decide (p.chans &&& cover = 0)) = false) (h : s.Walked t due (cover ||| p.chans) (kept ++ [p]) l) :
    s.Walked t due cover kept (p :: l) where
  rest := h.rest.trans (by rw [unswept_cons, hp, List.append_assoc]; rfl)
  touched i := by rw [h.touched, any_sweptAt_cons, hp, Bool.false_and, Bool.false_or]
  same i hi := h.same i fun k => by rw [← sweptAt_succ]; exact hi (k + 1)
  preset i k q hq hk := by
    cases k with
    | zero => rw [sweptAt_zero, hp, Bool.false_and] at hk; cases hk
    | succ k => exact h.preset i k q hq (by rwa [sweptAt_succ] at hk)

/-- R64, R66: a preset that is applied touches its channels. -/
theorem State.Walked.apply {s t : State} {due : Preset → Bool} {cover : ChanSet} {kept l : List Preset} {p : Preset}
    (hp : (due p && decide (p.chans &&& cover = 0)) = true)
    (h : (s.applyPreset p).Walked t due (cover ||| p.chans) kept l) : s.Walked t due cover kept (p :: l) where
  rest := h.rest.trans (by rw [unswept_cons, hp]; rfl)
  touched i := by
    have htouched : (s.applyPreset p).hist.touched = s.hist.touched ||| p.chans := rfl
    rw [h.touched, any_sweptAt_cons, hp, htouched, BitVec.getLsbD_or, Bool.true_and, Bool.or_assoc]
  same i hi := by
    have hzero := hi 0
    rw [sweptAt_zero, hp, Bool.true_and] at hzero
    rw [h.same i fun k => by rw [← sweptAt_succ]; exact hi (k + 1), State.applyPreset_chans, hzero]
    rfl
  preset i k q hq hk := by
    cases k with
    | zero =>
      rw [sweptAt_zero, hp, Bool.true_and] at hk
      obtain rfl : p = q := by simpa using hq
      have hcover : (cover ||| p.chans).getLsbD i.val = true := by simp [hk]
      rw [h.same i (not_sweptAt_of_mem hcover), State.applyPreset_chans, if_pos hk]
    | succ k =>
      rw [sweptAt_succ] at hk
      have hnot : p.chans.getLsbD i.val = false := by
        by_contra hi
        exact absurd hk (by simp [not_sweptAt_of_mem (due := due) (l := l) (cover := cover ||| p.chans) (i := i)
          (by simpa using .inr (by simpa using hi)) k])
      rw [h.preset i k q hq hk, State.applyPreset_chans, hnot]
      rfl

theorem State.walk_walked (due : Preset → Bool) (l : List Preset) : ∀ (s : State) (kept : List Preset) (cover : ChanSet),
    (∀ q, s.reachedNet q.time = due q) → (∀ q, s.holds kept q = overlaps q.chans cover) →
    s.Walked (s.walk kept l) due cover kept l := by
  induction l with
  | nil =>
    intro s kept cover _ _
    exact ⟨by simp [State.walk, unswept], by simp [State.walk], fun _ _ => rfl, by simp⟩
  | cons p l ih =>
    intro s kept cover hdue hholds
    have hguard : (s.reachedNet p.time && !s.holds kept p) = (due p && decide (p.chans &&& cover = 0)) := by
      rw [hdue, hholds, overlaps_eq, Bool.not_not]
    rw [State.walk, hguard]
    cases hp : due p && decide (p.chans &&& cover = 0)
    · exact .keep hp (ih s (kept ++ [p]) _ hdue fun q => by rw [State.holds_append, hholds, overlaps_or])
    · exact .apply hp (ih (s.applyPreset p) kept _ hdue fun q => by rw [State.applyPreset_holds, hholds, overlaps_or])

/-- R64: where every due preset is held, the walk changes nothing but the list it stands at. -/
theorem State.walk_held (l : List Preset) : ∀ (s : State) (kept : List Preset),
    (∀ q ∈ l, s.reachedNet q.time = true → s.holds kept q = true) →
    s.walk kept l = { s with hist := { s.hist with presets := kept ++ l } } := by
  induction l with
  | nil => intro s kept _; rw [State.walk, List.append_nil]
  | cons p l ih =>
    intro s kept h
    have hguard : (s.reachedNet p.time && !s.holds kept p) = false := by
      have hp := h p (.head _)
      cases hr : s.reachedNet p.time
      · rfl
      · rw [hp hr]; rfl
    rw [State.walk, hguard]
    refine (ih s (kept ++ [p]) fun q hq hr => ?_).trans (by simp)
    rw [State.holds_append, h q (.tail _ hq) hr, Bool.true_or]

/-- R66, R106, R111: what an applied preset makes of a channel. -/
theorem Channel.preset_spec (c : Channel) (value : Count) :
    (c.preset value).count = value ∧ (c.preset value).epoch = c.epoch + 1 ∧ (c.preset value).lastA = c.lastA ∧
      (c.preset value).lastB = c.lastB ∧ (∀ n, ((c.preset value).record n).cause = (c.record n).cause) ∧
      if c.quality = .fault then
        (c.preset value).quality = .fault ∧ (c.preset value).timer = c.timer ∧
          ∀ n, ((c.preset value).record n).latched = (c.record n).latched
      else
        (c.preset value).quality = .good ∧ (c.preset value).timer = none ∧
          ∀ n, ((c.preset value).record n).latched = ((c.record n).latched && (c.record n).cause) := by
  by_cases hq : c.quality = .fault
  · have hp : c.preset value = { c with count := value, epoch := c.epoch + 1 } := by simp [Channel.preset, hq]
    rw [hp, if_pos hq]
    exact ⟨rfl, rfl, rfl, rfl, fun n => by cases n <;> rfl, hq, rfl, fun n => by cases n <;> rfl⟩
  · have hp : c.preset value = Channel.acknowledge { c with count := value, epoch := c.epoch + 1 } := by
      cases h : c.quality <;> simp_all [Channel.preset]
    rw [hp, if_neg hq]
    refine ⟨rfl, rfl, rfl, rfl, fun n => ?_, rfl, rfl, fun n => ?_⟩
    · cases n <;> exact LineRecord.clear_cause _
    · cases n <;> simp [Channel.record, Channel.acknowledge, Channel.clearFlags, LineRecord.clear_eq]

end Sys2Proof.Machine

namespace Sys2Proof

-- one declaration after the other: fewer threads at a time
set_option Elab.async false

open Machine

/-- Settles O53, by what the walk makes of the list, the touched set and the channels. -/
theorem presetDueApplies : Obligations.PresetDueApplies := by
  refine ⟨fun s => ?_, fun dt s hr => ?_, fun dt s p rest hr hl hd => ?_⟩
  · intro l applied reaches
    have happlied : ∀ k, applied k = sweeps (fun q => s.reachedNet q.time) s.hist.touched l k := fun k => by
      simp only [applied, sweeps]
      cases l[k]? <;> rfl
    have hreaches : ∀ k i, reaches k i = sweptAt (fun q => s.reachedNet q.time) s.hist.touched l i k := fun k i => by
      simp only [reaches, happlied, sweptAt]
    obtain ⟨hrest, htouched, hsame, hpreset⟩ := State.walk_walked (fun q => s.reachedNet q.time) l s [] s.hist.touched
      (fun _ => rfl) fun q => by simp [State.holds]
    refine ⟨(s.walk [] l).chans, (s.walk [] l).hist.touched, ?_, fun i => ⟨?_, fun h => ?_, fun k q hq hk => ?_⟩⟩
    · refine Eq.trans hrest ?_
      simp only [happlied, unswept, List.nil_append]
    · simp only [htouched i, hreaches]
    · exact hsame i fun k => by rw [← hreaches]; exact h k
    · intro old new
      have hnew : new = old.preset q.value := hpreset i k q hq (by rw [← hreaches]; exact hk)
      rw [hnew]
      exact old.preset_spec q.value
  · rw [exec_eq_effect]
    show Host.Outcome.next ((s.elapse dt).takePresetDue).settle = _
    rw [State.takePresetDue, if_pos (by simpa using hr)]
  · have hexec : exec (.presetDue dt) s = .next ((s.elapse dt).walk [] (p :: rest)).settle := by
      rw [exec_eq_effect]
      show Host.Outcome.next ((s.elapse dt).takePresetDue).settle = _
      rw [State.takePresetDue, if_pos (by simpa using hr), State.walkPresets, State.elapse_hist, hl]
    refine ⟨fun hfree hrest => ⟨((s.elapse dt).applyPreset p).chans, ?_, fun i => ?_⟩, fun hheld hrest => ?_⟩
    · have hguard : ((s.elapse dt).reachedNet p.time && !(s.elapse dt).holds [] p) = true := by
        rw [((s.elapse dt).reachedNet_iff p.time).mpr (by simpa using hd)]
        simp [State.holds, overlaps, hfree]
      rw [hexec, State.walk, if_pos hguard, State.walk_held rest _ [] fun q hq hdue => ?_]
      · simp [State.applyPreset, State.presetChannels]
      · have h := hrest q hq (by simpa using ((s.elapse dt).reachedNet_iff q.time).mp hdue)
        have hover : overlaps q.chans (s.hist.touched ||| p.chans) = true := decide_eq_true h
        rw [State.applyPreset_holds, State.holds, List.any_nil, Bool.or_false, State.elapse_hist, ← overlaps_or, hover]
    · intro old new
      have hnew : new = if p.chans.getLsbD i.val then old.preset p.value else old := by
        simp only [new, old, State.applyPreset_chans, State.elapse_chans]
      cases hi : p.chans.getLsbD i.val
      · rw [hi] at hnew
        rw [if_pos rfl]
        exact hnew
      · rw [hi, if_pos rfl] at hnew
        rw [if_neg (by simp), hnew]
        exact old.preset_spec p.value
    · have hheld' : ∀ q ∈ p :: rest, (s.elapse dt).reachedNet q.time = true → (s.elapse dt).holds [] q = true := by
        intro q hq hdue
        rcases List.mem_cons.mp hq with rfl | hq
        · simpa [State.holds, overlaps] using hheld
        · have hlater := hrest q hq
          rw [State.reachedNet_iff] at hdue
          simp [hlater] at hdue
      have hsame : { s.elapse dt with hist := { (s.elapse dt).hist with presets := p :: rest } } = s.elapse dt := by
        rw [← hl, ← State.elapse_hist s dt]
      rw [hexec, State.walk_held _ _ [] hheld', List.nil_append, hsame]

end Sys2Proof

/-!
PROOFS. Origination: fire requests and cadence moments.
-/

namespace Sys2Proof.Machine

-- one declaration after the other: fewer threads at a time
set_option Elab.async false

/-! ### Room and tags -/

/-- R5: the state once a given oldest freeable entry of a full table is freed. -/
theorem State.makeRoom_split {s : State} (hs : s.uidsSound = true) (hlen : s.cap.table.length = 16)
    {older newer : List Entry} {freed : Entry} (hsplit : s.cap.table = older ++ freed :: newer)
    (holder : ∀ x ∈ older, x.freeable = false) (hfreed : freed.freeable = true) :
    s.makeRoom = some { s with
      cap := { s.cap with table := older ++ newer }
      link := { s.link with queue := s.link.queue.filter fun f => f.owner != .entry freed.uid } } := by
  have hfind : s.cap.table.find? Entry.freeable = some freed :=
    List.find?_eq_some_iff_append.mpr ⟨hfreed, older, newer, hsplit, fun x hx => by simp [holder x hx]⟩
  rw [State.makeRoom, if_neg (by simp [hlen, Config.tableSize]), hfind, Option.map_some, State.freeEntry,
    State.filter_uid_split hs hsplit]
  simp only [LinkUnit.withdraw, bne_eq_decide_ne]

theorem State.tagTaken_iff (s : State) (tag : Tag) :
    s.tagTaken tag = true ↔ (∃ e ∈ s.cap.table, e.tag = tag) ∨ tag ∈ s.cap.declined := by
  simp [State.tagTaken, State.tagged?]

/-! ### A fire request -/

section
variable {s : State} {stamp : Time} {k : TermNo}

theorem State.takeFire_full (hj : s.joined = true)
    (h : 4 ≤ s.originCount ∨ (16 ≤ s.cap.table.length ∧ ∀ e ∈ s.cap.table, e.freeable = false)) :
    s.takeFire stamp k = s.setFireLost k := by
  unfold State.takeFire
  rw [if_neg (by simp [hj])]
  by_cases hcount : 4 ≤ s.originCount
  · exact if_pos hcount
  · obtain ⟨hlen, hfree⟩ := h.resolve_left hcount
    rw [if_neg (by simpa [Config.originPlaces] using hcount), State.makeRoom_none hlen hfree]

theorem State.takeFire_room (hj : s.joined = true) (hcount : s.originCount < 4) {t : State} (hroom : s.makeRoom = some t) :
    s.takeFire stamp k = if t.tagTaken (.station t.ctrl.identity t.cap.sequence) then t.nextSequence.setFireLost k
      else t.originateFire k stamp := by
  unfold State.takeFire
  rw [if_neg (by simp [hj]), if_neg (by simpa [Config.originPlaces] using hcount), hroom]

/-- R31: the entry of the TRIGGERED capture of a fire. -/
def State.firedEntry (s : State) (k : TermNo) (stamp : Time) : Entry :=
  s.newEntry (.station s.ctrl.identity s.cap.sequence) (s.image.terms.get k).group (stamp + s.time.correction) .triggered
    (some (Origin.fresh (some k)))

/-- R31: the state in which the entry of a fire joins the table: its CALL carries the flag, which clears. -/
def State.fired (s : State) (k : TermNo) (stamp : Time) : State :=
  { s with
    trig := { s.trig with terms := s.trig.terms.set k { s.trig.terms.get k with fireLost := false } }
    cap := { s.cap with sequence := s.cap.sequence + 1 }
    link := s.link.enqueue (.entry s.cap.nextUid) (.call ⟨.station s.ctrl.identity s.cap.sequence,
      (s.image.terms.get k).group, stamp + s.time.correction, .triggered, (s.trig.terms.get k).fireLost⟩) }

theorem State.originateFire_of_room (hroom : s.link.count < 12) :
    s.originateFire k stamp = ((s.fired k stamp).addEntry (s.firedEntry k stamp)).resolveAtOnce (s.firedEntry k stamp) := by
  unfold State.originateFire
  simp only []
  rw [State.offer_of_room rfl (by simpa [Config.queueSize] using hroom)]
  rfl

theorem State.fired_count : (s.fired k stamp).link.count = s.link.count + 1 := by
  simp [State.fired]

end

end Sys2Proof.Machine

namespace Sys2Proof

-- one declaration after the other: fewer threads at a time
set_option Elab.async false

open Machine

/-- Settles O56: the guards in their order, room made, and the entry that has just joined resolved at once or waiting. -/
theorem fireTaken : Obligations.FireTaken := by
  intro s stamp k term lost tag held g instant answered
  refine ⟨fun hj => ?_, fun hj hcount hlen hs older freed newer hsplit holder hfreed => ?_, fun hj h => ?_,
    fun hj hcount hlen hheld => ?_, fun hj hcount hlen hheld hroom hs => ?_⟩
  · simp [State.takeFire, hj]
  · have hroom := State.makeRoom_split hs hlen hsplit holder hfreed
    have hsub : (older ++ newer).Sublist s.cap.table := by
      rw [hsplit]
      exact (List.sublist_cons_self freed newer).append_left older
    have hshort : (older ++ newer).length < 16 := by
      rw [hsplit] at hlen
      simp only [List.length_append, List.length_cons] at hlen ⊢
      omega
    rw [State.takeFire_room hj hcount hroom]
    refine (State.takeFire_room (by exact hj) ?_ (State.makeRoom_short (by exact hshort))).symm
    exact Nat.lt_of_le_of_lt (State.originCount_le_of_sublist hsub) hcount
  · exact State.takeFire_full hj h
  · rw [State.takeFire_room hj hcount (State.makeRoom_short hlen), if_pos ((s.tagTaken_iff _).mpr hheld)]
    rfl
  · rw [State.takeFire_room hj hcount (State.makeRoom_short hlen), if_neg (mt (s.tagTaken_iff _).mp hheld)]
    have huids : (s.fired k stamp).uidsSound = true := hs
    have hlocal : (s.fired k stamp).toLocal (s.firedEntry k stamp).time = stamp := by
      simp [State.fired, State.firedEntry, State.newEntry, State.toLocal]
    have hanswered : answered = (s.fired k stamp).hist.newerThan
        ((s.fired k stamp).toLocal (s.firedEntry k stamp).time) := by
      rw [hlocal]
      rfl
    rw [State.originateFire_of_room (by omega), State.resolveAtOnce_added huids rfl rfl
      (by rw [State.fired_count]; omega), ← hanswered]
    clear_value answered
    have hreport : (s.fired k stamp).reportOf (s.firedEntry k stamp) =
        ⟨tag, s.time.state, .none, s.readings s.image.groups[g].map stamp⟩ := by
      rw [State.reportOf, hlocal]
      rfl
    cases answered
    · rfl
    · rw [if_pos rfl, hreport]
      rfl

end Sys2Proof

/-!
PROOFS. What an offer does not look at, and the cadence moments.
-/

namespace Sys2Proof.Machine

-- one declaration after the other: fewer threads at a time
set_option Elab.async false

/-! ### What an offer does not look at -/

/-- The state with the time unit and the schedules changed. -/
def State.refit (s : State) (τ : TimeUnit → TimeUnit) (σ : List Schedule → List Schedule) : State :=
  { s with time := τ s.time, cap := { s.cap with schedules := σ s.cap.schedules } }

section
variable {τ : TimeUnit → TimeUnit} {σ : List Schedule → List Schedule}

theorem State.leaveEnded_refit (hτ : ∀ t, (τ t).localTime = t.localTime) (s : State) :
    (s.refit τ σ).leaveEnded = s.leaveEnded.refit τ σ := by
  have hlifecycle : (s.refit τ σ).ctrl = s.ctrl := rfl
  have hnow : (s.refit τ σ).time.localTime = s.time.localTime := hτ s.time
  rw [State.leaveEnded_eq, State.leaveEnded_eq s, State.leaveEnded_ctrl, hlifecycle, hnow, ← State.leaveEnded_ctrl]
  rfl

/-- R145: no loss looks at the schedules, and none at the time but the end of LEAVING, at local time. -/
theorem State.lose_refit (hτ : ∀ t, (τ t).localTime = t.localTime) (s : State) (f : QFrame) (o : Loss) :
    (s.refit τ σ).lose f o = (s.lose f o).refit τ σ := by
  obtain ⟨owner, content, age, attempts, started⟩ := f
  by_cases ho : o = .withdrawn
  · subst ho
    cases owner with
    | entry uid => cases content <;> rfl
    | declined tag => rfl
    | time => rfl
    | reply id => rfl
    | controller => rfl
  · cases owner with
    | entry uid =>
      cases content with
      | call b =>
        simp only [State.lose, if_neg ho]
        rw [State.callLost_eq, State.callLost_eq s]
        rfl
      | report b => simp only [State.lose, if_neg ho]; rfl
      | close b => simp only [State.lose, if_neg ho]; rfl
      | leave b => rfl
      | beacon b => rfl
      | reply id b => rfl
    | declined tag => rfl
    | time => rfl
    | reply id => rfl
    | controller =>
      simp only [State.lose, if_neg ho]
      exact s.leaveEnded_refit hτ

theorem State.offer_refit (hτ : ∀ t, (τ t).localTime = t.localTime) (s : State) (o : Owner) (c : Content) :
    (s.refit τ σ).offer o c = (s.offer o c).refit τ σ := by
  have hlink : (s.refit τ σ).link = s.link := rfl
  have hwith : ∀ (u : State) l, (u.refit τ σ).withLink l = (u.withLink l).refit τ σ := fun _ _ => rfl
  unfold State.offer
  rw [hlink]
  split
  · rw [hwith, State.lose_refit hτ]
  · split
    · rfl
    · split
      · simp only [hwith, State.lose_refit hτ]
        rfl
      · rw [State.lose_refit hτ]

end

/-! ### Cadence moments -/

theorem State.schedule?_eq_some {s : State} {g : Group} {x : Schedule} (h : s.schedule? g = some x) : x.group = g := by
  simpa using List.find?_some h

theorem State.elected_iff (s : State) (g : Group) : s.elected g = true ↔
    ∀ q ∈ s.time.peers, q.state = .admitted → q.groups.getLsbD g.val = true → s.ctrl.identity < q.ident := by
  simp only [State.elected, List.all_eq_true, Bool.or_eq_true, Bool.not_eq_true', Bool.and_eq_false_iff,
    decide_eq_false_iff_not, decide_eq_true_eq]
  grind

theorem State.advanceIndex_eq (s : State) (g : Group) : s.advanceIndex g = s.refit id fun l => l.map fun y =>
    if y.group = g then { y with index := wrapIndex (s.cadenceTicks g) (y.index + 1) } else y := rfl

theorem State.cadenceMoment_eq {s : State} {g : Group} {x : Schedule} (hj : s.joined = true)
    (hx : s.schedule? g = some x) (hd : s.reachedNet (s.cadenceMomentOf x) = true) :
    s.cadenceMoment g = (s.settleIndex x).advanceIndex g := by
  have hdue : s.cadenceDue g = true := by simp only [State.cadenceDue, hx, hj, hd, Bool.and_self]
  simp only [State.cadenceMoment, hx, hdue, if_true]

section
variable {s : State} {x : Schedule}

/-- R35: an index the station does not originate a capture for. -/
theorem State.settleIndex_skip (h : ¬ s.elected x.group = true ∨ s.tagTaken x.tag = true ∨ 4 ≤ s.originCount ∨
    (16 ≤ s.cap.table.length ∧ ∀ e ∈ s.cap.table, e.freeable = false)) : s.settleIndex x = s := by
  unfold State.settleIndex
  by_cases he : s.elected x.group = true
  · rw [if_neg (by simp [he])]
    by_cases ht : s.tagTaken x.tag = true
    · rw [if_pos ht]
    · rw [if_neg ht]
      by_cases hcount : 4 ≤ s.originCount
      · exact if_pos hcount
      · obtain ⟨hlen, hfree⟩ : 16 ≤ s.cap.table.length ∧ ∀ e ∈ s.cap.table, e.freeable = false := by tauto
        rw [if_neg (by simpa [Config.originPlaces] using hcount), State.makeRoom_none hlen hfree]
  · rw [if_pos (by simpa using he)]

theorem State.settleIndex_room (he : s.elected x.group = true) (ht : ¬ s.tagTaken x.tag = true)
    (hcount : s.originCount < 4) {t : State} (hroom : s.makeRoom = some t) : s.settleIndex x = t.originateCadence x := by
  unfold State.settleIndex
  rw [if_neg (by simp [he]), if_neg ht, if_neg (by simpa [Config.originPlaces] using hcount), hroom]

/-- R31, R35: the entry of a CADENCE capture. -/
def State.cadenceEntry (s : State) (x : Schedule) : Entry :=
  s.newEntry x.tag x.group (s.cadenceInstant x) .cadence (some (Origin.fresh none))

theorem State.originateCadence_advanceIndex (s : State) (x : Schedule) (g : Group) :
    (s.originateCadence x).advanceIndex g = ((s.advanceIndex g).addEntry (s.cadenceEntry x)).offer (.entry s.cap.nextUid)
      (.call ⟨x.tag, x.group, s.cadenceInstant x, .cadence, false⟩) := by
  have hticks : (s.originateCadence x).cadenceTicks g = s.cadenceTicks g := by
    simp [State.cadenceTicks, State.originateCadence]
  rw [State.advanceIndex_eq, hticks, State.originateCadence, ← State.offer_refit (τ := id) fun _ => rfl]
  rfl

end

theorem LinkUnit.hear_withQueue (l : LinkUnit) (edge : Option Time) (queue : List QFrame) :
    LinkUnit.hear { l with queue := queue } edge = { l.hear edge with queue := queue } := by
  cases edge <;> rfl

theorem State.watchBus_withKept (s : State) (dt : Lapse) (kept : List Entry) (queue : List QFrame) :
    (s.withKept kept queue).watchBus dt = { s.watchBus dt with queue := queue } := by
  have hrunning : (s.withKept kept queue).running = s.running := rfl
  have hcount : (s.withKept kept queue).link.idleCount = s.link.idleCount := rfl
  unfold State.watchBus
  rw [hrunning, hcount]
  cases s.running
  · rfl
  · cases s.link.idleCount with
    | none => rfl
    | some count =>
      exact LinkUnit.hear_withQueue { s.link with idleCount := some (idleAfter count (s.dominantIn dt) dt.ticks) }
        ((s.startBit dt count).map (addTicks s.time.localTime)) queue

/-- R70: the table and the frames not in flight do not matter to the time that passes. -/
theorem State.elapse_withKept (s : State) (dt : Lapse) (kept : List Entry) (queue : List QFrame) :
    (s.withKept kept queue).elapse dt = (s.elapse dt).withKept kept queue := by
  cases hh : s.ctrl.hold with
  | some h => rw [State.elapse_held dt hh, State.elapse_held (s := s.withKept kept queue) dt hh]
  | none =>
    rw [State.elapse_released dt hh, State.elapse_released (s := s.withKept kept queue) dt hh,
      State.watchBus_withKept]
    rfl

theorem State.exec_cadenceMoment {dt : Lapse} {s : State} {g : Group} {x : Schedule} (hj : (s.elapse dt).joined = true)
    (hx : (s.elapse dt).schedule? g = some x) (hd : (s.elapse dt).reachedNet ((s.elapse dt).cadenceMomentOf x) = true) :
    exec (.cadenceMoment dt g) s = .next (((s.elapse dt).settleIndex x).advanceIndex g).settle := by
  rw [exec_eq_effect]
  show Host.Outcome.next ((s.elapse dt).cadenceMoment g).settle = _
  rw [State.cadenceMoment_eq hj hx hd]

end Sys2Proof.Machine

namespace Sys2Proof

-- one declaration after the other: fewer threads at a time
set_option Elab.async false

open Machine

/-- Settles O54: the index advances whatever became of it, and an offer does not look at the schedules. -/
theorem cadenceMomentSettles : Obligations.CadenceMomentSettles := by
  intro dt s g x hh hl hx p instant hd tag elected held noRoom schedules
  have hj : (s.elapse dt).joined = true := by simp [State.joined_of hh hl]
  have hg : x.group = g := State.schedule?_eq_some hx
  have hx' : (s.elapse dt).schedule? g = some x := by simpa [State.schedule?] using hx
  have hdue : (s.elapse dt).reachedNet ((s.elapse dt).cadenceMomentOf x) = true := by
    rw [State.reachedNet_iff]
    simpa [State.cadenceMomentOf, State.cadenceInstant, State.cadenceTicks, State.leadTicks, hg, Config.ticksPerMs, instant,
      p] using hd
  have hexec := State.exec_cadenceMoment hj hx' hdue
  have helected : (s.elapse dt).elected x.group = true ↔ elected := by
    rw [State.elected_iff, hg, State.elapse_peers, State.elapse_ctrl]
  have htag : x.tag = tag := by rw [Schedule.tag, hg]
  have hheld : (s.elapse dt).tagTaken x.tag = true ↔ held := by rw [State.tagTaken_iff, State.elapse_cap, htag]
  have hcounts : (s.elapse dt).originCount = s.originCount := by simp [State.originCount]
  have hadvanced : (s.elapse dt).advanceIndex g = { s.elapse dt with cap := { s.cap with schedules := schedules } } := by
    simp [State.advanceIndex, State.cadenceTicks, wrapIndex, Config.ticksPerMs, schedules, p]
  have hinstant : (s.elapse dt).cadenceInstant x = instant := by
    simp [State.cadenceInstant, State.cadenceTicks, Config.ticksPerMs, hg, instant, p]
  have hentry : (s.elapse dt).cadenceEntry x = {
      uid := s.cap.nextUid, tag := tag, group := g, time := instant, kind := .cadence
      retentionEnd := laterOf (s.elapse dt).netTime instant + 1000000
      member := .waiting
      strobe := if later (instant - s.time.correction) (s.elapse dt).time.localTime then .pending else .missed
      origin := some ⟨.calling, 0, 0, 0, none, false, none⟩ } := by
    simp [State.cadenceEntry, State.newEntry, hinstant, htag, hg, State.retentionFor, State.strobeFlagFor, addTicks,
      Config.retention, State.toLocal, Origin.fresh]
  refine ⟨fun h => ?_, ?_⟩
  · rw [hexec, State.settleIndex_skip ?_, hadvanced]
    rw [helected, hheld, hcounts, State.elapse_cap]
    tauto
  · intro joined
    have horiginated : ((s.elapse dt).originateCadence x).advanceIndex g = joined.offer (.entry s.cap.nextUid)
        (.call ⟨tag, g, instant, .cadence, false⟩) := by
      rw [State.originateCadence_advanceIndex, hadvanced, hentry, htag, hg, hinstant, State.elapse_cap]
      rfl
    have hshort : elected → ¬ held → s.originCount < 4 → s.cap.table.length < 16 →
        exec (.cadenceMoment dt g) s = .next (State.settle (State.offer joined (.entry s.cap.nextUid)
          (.call ⟨tag, g, instant, .cadence, false⟩))) := by
      intro he ht hcount hlen
      rw [hexec, State.settleIndex_room (helected.mpr he) (mt hheld.mp ht) (by rw [hcounts]; exact hcount)
        (State.makeRoom_short (by simpa using hlen)), horiginated]
    refine ⟨fun he ht hcount hlen hs older freed newer hsplit holder hfreed => ?_, hshort,
      fun he ht hcount hlen hroom => ?_⟩
    · let queue := s.link.queue.filter fun f => f.owner != .entry freed.uid
      have hroom : (s.elapse dt).makeRoom = some ((s.elapse dt).withKept (older ++ newer) queue) := by
        have h := State.makeRoom_split (s := s.elapse dt) (by simpa using hs) (by simpa using hlen)
          (by simpa using hsplit) holder hfreed
        simpa [State.withKept, queue] using h
      have hsub : (older ++ newer).Sublist s.cap.table := by
        rw [hsplit]
        exact (List.sublist_cons_self freed newer).append_left older
      have hkept : (s.withKept (older ++ newer) queue).elapse dt = (s.elapse dt).withKept (older ++ newer) queue :=
        s.elapse_withKept dt _ _
      have hlenKept : (older ++ newer).length < 16 := by
        rw [hsplit] at hlen
        simp only [List.length_append, List.length_cons] at hlen ⊢
        omega
      have hheldKept : ¬ ((s.elapse dt).withKept (older ++ newer) queue).tagTaken x.tag = true := by
        rw [State.tagTaken_iff, htag]
        rintro (⟨e, he', htag'⟩ | hdecl)
        · exact ht (.inl ⟨e, hsub.subset he', htag'⟩)
        · exact ht (.inr (by simpa [State.withKept] using hdecl))
      have hexecKept := State.exec_cadenceMoment (s := s.withKept (older ++ newer) queue) (dt := dt) (g := g) (x := x)
        (by rw [hkept]; exact hj) (by rw [hkept]; exact hx') (by rw [hkept]; exact hdue)
      rw [hexec, State.settleIndex_room (helected.mpr he) (mt hheld.mp ht) (by rw [hcounts]; exact hcount) hroom]
      refine Eq.trans ?_ hexecKept.symm
      rw [hkept, State.settleIndex_room (by exact helected.mpr he) hheldKept ?_ (State.makeRoom_short (by exact hlenKept))]
      exact Nat.lt_of_le_of_lt (State.originCount_le_of_sublist hsub) hcount
    · rw [hshort he ht hcount hlen, State.offer_of_room rfl (by simpa [Config.queueSize, joined, LinkUnit.count] using hroom)]
      simp [joined, State.withLink, LinkUnit.enqueue]

end Sys2Proof

/-!
PROOFS. A change of the correction: the entries it frees, the strobes it makes late, the schedules it sets afresh, the
collections it closes and the presets it walks.
-/

namespace Sys2Proof.Machine

-- one declaration after the other: fewer threads at a time
set_option Elab.async false

/-! ### Several entries freed -/

/-- R4, R6: the entries of several names are freed, one after the other. -/
theorem State.foldl_freeEntry (l : List Nat) : ∀ s : State, ∃ queue : List QFrame, queue.Sublist s.link.queue ∧
    l.foldl State.freeEntry s = s.withKept (s.cap.table.filter fun e => decide (e.uid ∉ l)) queue := by
  induction l with
  | nil => exact fun s => ⟨s.link.queue, .refl _, by simp [State.withKept]⟩
  | cons uid l ih =>
    intro s
    obtain ⟨queue, hqueue, hfold⟩ := ih (s.freeEntry uid)
    refine ⟨queue, hqueue.trans List.filter_sublist, ?_⟩
    rw [List.foldl_cons, hfold]
    have htable : (s.freeEntry uid).cap.table.filter (fun e => decide (e.uid ∉ l)) =
        s.cap.table.filter fun e => decide (e.uid ∉ uid :: l) := by
      rw [State.freeEntry, List.filter_filter]
      refine List.filter_congr fun e _ => ?_
      simp only [List.mem_cons, not_or, Bool.decide_and, bne_eq_decide_ne, Bool.and_comm, ne_eq]
    rw [htable]
    rfl

/-- An entry is the one of its name, so a property of the table's entries is one of their names. -/
theorem State.mem_map_uid_filter {s : State} (hs : s.uidsSound = true) {e : Entry} (he : e ∈ s.cap.table)
    (p : Entry → Bool) : e.uid ∈ (s.cap.table.filter p).map Entry.uid ↔ p e = true := by
  simp only [List.mem_map, List.mem_filter]
  refine ⟨?_, fun h => ⟨e, ⟨he, h⟩, rfl⟩⟩
  rintro ⟨x, ⟨hx, hp⟩, hu⟩
  rwa [(State.uid_eq_iff hs he hx).mp hu] at hp

theorem State.freeExpired_eq {s : State} (hs : s.uidsSound = true) : ∃ queue : List QFrame,
    queue.Sublist s.link.queue ∧ s.freeExpired = s.withKept (s.cap.table.filter fun e => !s.retentionDue e) queue := by
  obtain ⟨queue, hqueue, hfold⟩ := State.foldl_freeEntry ((s.cap.table.filter s.retentionDue).map Entry.uid) s
  refine ⟨queue, hqueue, hfold.trans ?_⟩
  congr 1
  refine List.filter_congr fun e he => ?_
  have h := State.mem_map_uid_filter hs he s.retentionDue
  cases hd : s.retentionDue e <;> simp only [hd, Bool.false_eq_true, iff_false, iff_true] at h <;> simp [h]

/-! ### Several collections closed -/

theorem State.deadlineDue_eq_true {s : State} {e : Entry} : s.deadlineDue e = true ↔
    ∃ o, e.origin = some o ∧ o.state = .collecting ∧ o.deadline.any s.reachedNet = true := by
  unfold State.deadlineDue
  obtain ⟨_, _, _, _, _, _, _, _, origin⟩ := e
  rcases origin with _ | ⟨_ | _ | _, _, _, _, _ | d, _, _⟩ <;> simp

/-- R43: the deadlines of several entries are taken, one after the other, in a queue with room for every CLOSE. -/
theorem State.foldl_takeDeadline (l : List Nat) : ∀ s : State, s.uidsSound = true → l.Nodup →
    (∀ uid ∈ l, ∃ e ∈ s.cap.table, e.uid = uid ∧ s.deadlineDue e = true) → s.link.count + l.length ≤ 12 →
    l.foldl State.takeDeadline s = { s with
      cap := { s.cap with table := s.cap.table.map fun e => if e.uid ∈ l then e.onOrigin Origin.closing else e }
      link := l.foldl (fun link uid => link.enqueue (.entry uid) (.close none)) s.link } := by
  induction l with
  | nil => intro s _ _ _ _; simp
  | cons uid l ih =>
    intro s hs hnodup hdue hroom
    obtain ⟨e, he, rfl, hed⟩ := hdue uid (.head _)
    obtain ⟨hnot, hnodup'⟩ := List.nodup_cons.mp hnodup
    have hcount : s.link.count < 12 := by
      rw [List.length_cons] at hroom
      omega
    let t := (s.onEntry e.uid fun x => x.onOrigin Origin.closing).withLink (s.link.enqueue (.entry e.uid) (.close none))
    have htake : s.takeDeadline e.uid = t := by
      simp only [State.takeDeadline, State.entry?_of_mem hs he, hed, if_true]
      exact State.beginClosing_of_room hcount
    have huids : t.uidsSound = true := State.uidsSound_of_map rfl rfl (fun x => by split <;> rfl) hs
    have hdue' : ∀ uid ∈ l, ∃ x ∈ t.cap.table, x.uid = uid ∧ t.deadlineDue x = true := by
      intro uid hu
      obtain ⟨x, hx, rfl, hxd⟩ := hdue uid (.tail _ hu)
      have hne : x.uid ≠ e.uid := fun h => hnot (h ▸ hu)
      exact ⟨x, List.mem_map.mpr ⟨x, hx, if_neg hne⟩, rfl, hxd⟩
    have hroom' : t.link.count + l.length ≤ 12 := by
      have : t.link.count = s.link.count + 1 := by simp [t, State.withLink]
      rw [List.length_cons] at hroom
      omega
    rw [List.foldl_cons, htake, ih t huids hnodup' hdue' hroom']
    have htable : (t.cap.table.map fun x => if x.uid ∈ l then x.onOrigin Origin.closing else x) =
        s.cap.table.map fun x => if x.uid ∈ e.uid :: l then x.onOrigin Origin.closing else x := by
      refine List.map_map.trans (List.map_congr_left fun x hx => ?_)
      by_cases hu : x.uid = e.uid
      · have hux : (x.onOrigin Origin.closing).uid ∉ l := hu.symm ▸ hnot
        simp only [Function.comp_def, hu, if_true, List.mem_cons, true_or]
        exact if_neg hux
      · simp only [Function.comp_def, List.mem_cons, hu, false_or, if_false]
    rw [htable]
    rfl

theorem State.takeDeadlines_eq {s : State} (hs : s.uidsSound = true)
    (hroom : s.link.count + (s.cap.table.filter s.deadlineDue).length ≤ 12) : s.takeDeadlines = { s with
      cap := { s.cap with table := s.cap.table.map fun e => if s.deadlineDue e then e.onOrigin Origin.closing else e }
      link := ((s.cap.table.filter s.deadlineDue).map Entry.uid).foldl
        (fun link uid => link.enqueue (.entry uid) (.close none)) s.link } := by
  obtain ⟨hnodup, -⟩ := s.uidsSound_iff.mp hs
  have hsub := (List.filter_sublist (p := s.deadlineDue) (l := s.cap.table)).map Entry.uid
  rw [State.takeDeadlines, State.foldl_takeDeadline _ s hs (hnodup.sublist hsub) ?_ (by simpa using hroom)]
  · have htable : (s.cap.table.map fun e =>
        if e.uid ∈ (s.cap.table.filter s.deadlineDue).map Entry.uid then e.onOrigin Origin.closing else e) =
        s.cap.table.map fun e => if s.deadlineDue e then e.onOrigin Origin.closing else e :=
      List.map_congr_left fun e he => by simp only [State.mem_map_uid_filter hs he]
    rw [htable]
  · intro uid hu
    obtain ⟨e, he, rfl⟩ := List.mem_map.mp hu
    obtain ⟨hmem, hed⟩ := List.mem_filter.mp he
    exact ⟨e, hmem, rfl, hed⟩

/-- R42: each collection that closes has its CLOSE in the queue. -/
theorem mem_foldl_enqueue {uid : Nat} (l : List Nat) : ∀ link : LinkUnit,
    (uid ∈ l ∨ ∃ f ∈ link.queue, f.owner = .entry uid ∧ f.content = .close none) →
    ∃ f ∈ (l.foldl (fun link uid => link.enqueue (.entry uid) (.close none)) link).queue,
      f.owner = .entry uid ∧ f.content = .close none := by
  induction l with
  | nil => exact fun link h => h.resolve_left (by simp)
  | cons x l ih =>
    intro link h
    refine ih _ ?_
    simp only [LinkUnit.enqueue, mem_insertFrame]
    rcases h with h | ⟨f, hf, hfe⟩
    · rcases List.mem_cons.mp h with rfl | h
      · exact .inr ⟨_, .inl rfl, rfl, rfl⟩
      · exact .inl h
    · exact .inr ⟨f, .inr hf, hfe⟩

/-! ### The walk looks at the history and the channels alone -/

theorem State.walk_congr (l : List Preset) : ∀ (s t : State) (kept : List Preset), t.hist = s.hist → t.chans = s.chans →
    (∀ x, t.reachedNet x = s.reachedNet x) →
    (t.walk kept l).hist = (s.walk kept l).hist ∧ (t.walk kept l).chans = (s.walk kept l).chans := by
  induction l with
  | nil =>
    intro s t kept hhist hchans _
    simp only [State.walk, hhist, hchans, and_self]
  | cons p l ih =>
    intro s t kept hhist hchans hreached
    have hguard : (t.reachedNet p.time && !t.holds kept p) = (s.reachedNet p.time && !s.holds kept p) := by
      rw [hreached, State.holds, hhist, State.holds]
    rw [State.walk, State.walk, hguard]
    split
    · refine ih (s.applyPreset p) (t.applyPreset p) kept ?_ ?_ hreached
      · simp only [State.applyPreset, State.presetChannels, hhist]
      · simp only [State.applyPreset, State.presetChannels, hchans]
    · exact ih s t _ hhist hchans hreached

theorem State.walkPresets_walked (s : State) :
    s.Walked s.walkPresets (fun q => s.reachedNet q.time) s.hist.touched [] s.hist.presets :=
  State.walk_walked _ _ s [] s.hist.touched (fun _ => rfl) fun q => by simp [State.holds]

/-! ### The whole change -/

/-- R25: a pending strobe whose instant is no longer ahead is missed. -/
def State.missed (s : State) (e : Entry) : Entry := if s.strobeDue e then { e with strobe := .missed } else e

/-- R33: a schedule whose moment is no longer ahead is set afresh. -/
def State.passed (s : State) (x : Schedule) : Schedule :=
  if s.reachedNet (s.cadenceMomentOf x) then { x with index := s.firstIndex x.group } else x

theorem State.missed_origin (s : State) (e : Entry) : (s.missed e).origin = e.origin := by
  unfold State.missed
  split <;> rfl

theorem State.missed_uid (s : State) (e : Entry) : (s.missed e).uid = e.uid := by
  unfold State.missed
  split <;> rfl

theorem State.missed_deadlineDue (s : State) (e : Entry) : s.deadlineDue (s.missed e) = s.deadlineDue e := by
  rw [Bool.eq_iff_iff, State.deadlineDue_eq_true, State.deadlineDue_eq_true, State.missed_origin]

theorem State.deadlineDue_origin {s : State} {e : Entry} (h : s.deadlineDue e = true) : e.origin.isSome = true := by
  obtain ⟨o, ho, -⟩ := State.deadlineDue_eq_true.mp h
  rw [ho]
  rfl

/-- R74: the capture unit after a change of the correction, in a queue with room for the CLOSEs. -/
theorem State.captureCorrected_eq {s : State} (hs : s.uidsSound = true) (hroom : s.link.count + s.originCount ≤ 12) :
    ∃ link : LinkUnit,
      (∀ e ∈ s.cap.table, s.deadlineDue e = true → ∃ f ∈ link.queue, f.owner = .entry e.uid ∧ f.content = .close none) ∧
      s.captureCorrected = { s with
        cap := { s.cap with
          table := (s.cap.table.filter fun e => !s.retentionDue e).map fun e =>
            if s.deadlineDue e then (s.missed e).onOrigin Origin.closing else s.missed e
          schedules := s.cap.schedules.map s.passed }
        link := link } := by
  obtain ⟨queue, hqueue, hfree⟩ := State.freeExpired_eq hs
  let kept := s.cap.table.filter fun e => !s.retentionDue e
  have hkept : kept.Sublist s.cap.table := List.filter_sublist
  let t : State := { s with
    cap := { s.cap with table := kept.map s.missed, schedules := s.cap.schedules.map s.passed }
    link := { s.link with queue := queue } }
  have ht : s.freeExpired.missStrobes.passSchedules = t := by rw [hfree]; rfl
  have huids : t.uidsSound = true :=
    State.uidsSound_of_map (s := s.withKept kept queue) rfl rfl s.missed_uid (State.uidsSound_of_sublist hkept rfl hs)
  have hdue : t.deadlineDue = s.deadlineDue := rfl
  have hdues : t.cap.table.filter t.deadlineDue = (kept.filter s.deadlineDue).map s.missed := by
    refine List.filter_map.trans (congrArg _ (List.filter_congr fun e _ => ?_))
    exact s.missed_deadlineDue e
  have hcount : t.link.count + (t.cap.table.filter t.deadlineDue).length ≤ 12 := by
    have horigins : (kept.filter s.deadlineDue).length ≤ s.originCount :=
      ((hkept.filter _).trans (List.monotone_filter_right _ fun _ => State.deadlineDue_origin)).length_le
    have hlink : t.link.count ≤ s.link.count := by
      have := hqueue.length_le
      simp only [LinkUnit.count, t]
      omega
    rw [hdues, List.length_map]
    omega
  refine ⟨((t.cap.table.filter t.deadlineDue).map Entry.uid).foldl
    (fun link uid => link.enqueue (.entry uid) (.close none)) t.link, fun e he hed => mem_foldl_enqueue _ _ (.inl ?_), ?_⟩
  · have hstays : e ∈ kept := by
      refine List.mem_filter.mpr ⟨he, ?_⟩
      simp [State.retentionDue, State.deadlineDue_origin hed]
    rw [hdues, List.map_map]
    exact List.mem_map.mpr ⟨e, List.mem_filter.mpr ⟨hstays, hed⟩, s.missed_uid e⟩
  · rw [State.captureCorrected, ht, State.takeDeadlines_eq huids hcount]
    have htable : (t.cap.table.map fun e => if t.deadlineDue e then e.onOrigin Origin.closing else e) =
        kept.map fun e => if s.deadlineDue e then (s.missed e).onOrigin Origin.closing else s.missed e := by
      refine List.map_map.trans (List.map_congr_left fun e _ => ?_)
      simp only [Function.comp_def, hdue, s.missed_deadlineDue]
    rw [htable]

/-- R25, R43: what a change of the correction makes of an entry that stays. -/
theorem State.corrected_entry (s : State) (e : Entry) :
    (if s.deadlineDue e then (s.missed e).onOrigin Origin.closing else s.missed e) = { e with
      strobe := if e.strobe = .pending ∧ s.reachedNet e.time = true then .missed else e.strobe
      origin := e.origin.map fun o => { o with
        state := if o.state = .collecting ∧ o.deadline.any s.reachedNet = true then .closing else o.state } } := by
  have hmissed : s.missed e = { e with
      strobe := if e.strobe = .pending ∧ s.reachedNet e.time = true then .missed else e.strobe } := by
    simp only [State.missed, State.strobeDue, Bool.and_eq_true, decide_eq_true_eq]
    split <;> rfl
  rw [hmissed]
  have hdue := State.deadlineDue_eq_true (s := s) (e := e)
  cases ho : e.origin with
  | none =>
    have hnot : ¬ s.deadlineDue e = true := by simp [hdue, ho]
    rw [if_neg hnot]
    simp
  | some o =>
    by_cases hd : o.state = .collecting ∧ o.deadline.any s.reachedNet = true
    · have hyes : s.deadlineDue e = true := hdue.mpr ⟨o, ho, hd⟩
      rw [if_pos hyes]
      simp [Entry.onOrigin, Origin.closing, hd]
    · have hnot : ¬ s.deadlineDue e = true := by simpa [hdue, ho] using hd
      rw [if_neg hnot]
      simp [hd]

end Sys2Proof.Machine

namespace Sys2Proof

-- one declaration after the other: fewer threads at a time
set_option Elab.async false

open Machine

/-- Settles O50, by what the change makes of the capture unit; the walk that follows looks at the history and the channels
alone. -/
theorem correctionReconverts : Obligations.CorrectionReconverts := by
  intro s delta hne hs hroom due now u
  let t : State := { s with time := { s.time with
    correction := s.time.correction + delta
    peers := s.time.peers.map fun p => { p with offset := p.offset - delta } } }
  obtain ⟨link, hclose, hcap⟩ := State.captureCorrected_eq (s := t) hs hroom
  have hu : u = t.captureCorrected.walkPresets := if_neg hne
  have hwalk : u.hist = (State.walkPresets { s with time := t.time }).hist ∧
      u.chans = (State.walkPresets { s with time := t.time }).chans := by
    rw [hu, hcap]
    exact State.walk_congr _ { s with time := t.time } _ [] rfl rfl fun _ => rfl
  have htime : u.time = t.time := by rw [hu, State.walkPresets_time, hcap]
  obtain ⟨hhist, hchans⟩ := hwalk
  refine ⟨htime, ?_, fun e he o ho hc hd => ?_, ?_, ?_, ?_, ?_, ?_, ?_, ?_, ?_, ?_, fun hall => ?_⟩
  · rw [hu, State.walkPresets_cap, hcap]
    have htable : ((t.cap.table.filter fun e => !t.retentionDue e).map fun e =>
        if t.deadlineDue e then (t.missed e).onOrigin Origin.closing else t.missed e) =
        (s.cap.table.filter fun e => !(e.origin.isNone && due e.retentionEnd)).map fun e => { e with
          strobe := if e.strobe = .pending ∧ due e.time then .missed else e.strobe
          origin := e.origin.map fun o => { o with
            state := if o.state = .collecting ∧ o.deadline.any due then .closing else o.state } } :=
      List.map_congr_left fun e _ => t.corrected_entry e
    have hnow : t.netTime = now := (BitVec.add_assoc _ _ _).symm
    have hschedules : t.cap.schedules.map t.passed = s.cap.schedules.map fun x =>
        let p := s.image.groups[x.group].period * 10000
        let lead := s.image.cadenceLead * 10000
        let k := (now + BitVec.ofNat 48 lead).toNat / p + 1
        if due (BitVec.ofNat 48 (x.index * p) - BitVec.ofNat 48 lead)
        then { x with index := if k * p < 2 ^ 48 then k else 0 } else x := by
      refine List.map_congr_left fun x _ => ?_
      rw [← hnow]
      rfl
    rw [htable, hschedules]
  · rw [hu, State.walkPresets_link, hcap]
    exact hclose e he (State.deadlineDue_eq_true.mpr ⟨o, ho, hc, hd⟩)
  · rw [hu, State.walkPresets_trig, hcap]
  · rw [hu, State.walkPresets_pins, hcap]
  · rw [hu, State.walkPresets_ctrl, hcap]
  · rw [hu, State.walkPresets_image, hcap]
  · rw [hu, State.walkPresets_req, hcap]
  · rw [hu, State.walkPresets_rings, hcap]
  · rw [hhist, (State.walkPresets_walked _).rest]
  · rw [hhist, (State.walkPresets_walked _).rest]
  · intro walked
    rw [show walked = State.walkPresets { s with time := t.time } by simp only [walked, htime]]
    exact ⟨hhist, hchans⟩
  · have hheld : ({ s with time := t.time } : State).walkPresets = { s with time := t.time } := by
      refine State.walk_held _ _ [] fun q hq hr => ?_
      have hlate : due q.time = true := hr
      rw [hall q hq] at hlate
      cases hlate
    rw [hhist, hchans, hheld]
    exact ⟨rfl, rfl⟩

end Sys2Proof

/-!
PROOFS. A sample instant: the rings, the entries it resolves, and the readings of a resolution.
-/

namespace Sys2Proof.Machine

-- one declaration after the other: fewer threads at a time
set_option Elab.async false

/-! ### Several entries resolved -/

/-- R15: several WAITING entries are resolved, one after the other, in a queue with room for every REPORT. -/
theorem State.foldl_resolveEntry (es : List Entry) : ∀ s : State, s.uidsSound = true → (es.map Entry.uid).Nodup →
    (∀ e ∈ es, e ∈ s.cap.table ∧ e.member = .waiting) → s.link.count + es.length ≤ 12 →
    (es.map Entry.uid).foldl State.resolveEntry s = { s with
      cap := { s.cap with
        table := s.cap.table.map fun e => if e.uid ∈ es.map Entry.uid then { e with member := .resolved } else e }
      link := es.foldl (fun l e => l.enqueue (.entry e.uid) (.report (s.reportOf e))) s.link } := by
  induction es with
  | nil => intro s _ _ _ _; simp
  | cons e es ih =>
    intro s hs hnodup hwaiting hroom
    obtain ⟨he, hw⟩ := hwaiting e (.head _)
    obtain ⟨hnot, hnodup'⟩ := List.nodup_cons.mp hnodup
    have hcount : s.link.count < 12 := by
      rw [List.length_cons] at hroom
      omega
    let t : State := { s with
      cap := { s.cap with table := s.cap.table.map fun x => if x.uid = e.uid then { x with member := .resolved } else x }
      link := s.link.enqueue (.entry e.uid) (.report (s.reportOf e)) }
    have hresolve : s.resolveEntry e.uid = t := State.resolveEntry_of_room (State.entry?_of_mem hs he) hw hcount
    have huids : t.uidsSound = true := State.uidsSound_of_map rfl rfl (fun x => by split <;> rfl) hs
    have hwaiting' : ∀ x ∈ es, x ∈ t.cap.table ∧ x.member = .waiting := by
      intro x hx
      obtain ⟨hmem, hxw⟩ := hwaiting x (.tail _ hx)
      have hne : x.uid ≠ e.uid := fun h => hnot (h ▸ List.mem_map_of_mem hx)
      exact ⟨List.mem_map.mpr ⟨x, hmem, if_neg hne⟩, hxw⟩
    have hroom' : t.link.count + es.length ≤ 12 := by
      have : t.link.count = s.link.count + 1 := by simp [t]
      rw [List.length_cons] at hroom
      omega
    rw [List.map_cons, List.foldl_cons, hresolve, ih t huids hnodup' hwaiting' hroom']
    have htable : (t.cap.table.map fun x => if x.uid ∈ es.map Entry.uid then { x with member := .resolved } else x) =
        s.cap.table.map fun x => if x.uid ∈ e.uid :: es.map Entry.uid then { x with member := .resolved } else x := by
      refine List.map_map.trans (List.map_congr_left fun x hx => ?_)
      by_cases hu : x.uid = e.uid
      · simp only [Function.comp_def, hu, if_true, List.mem_cons, true_or]
        exact if_neg hnot
      · simp only [Function.comp_def, List.mem_cons, hu, false_or, if_false]
    rw [htable]
    rfl

theorem State.resolveAll_eq {s : State} (hs : s.uidsSound = true) (t : Time) {answered : List Entry}
    (ha : answered = s.cap.table.filter fun e => decide (e.member = .waiting) && later t (e.time - s.time.correction))
    (hroom : s.link.count + answered.length ≤ 12) : s.resolveAll t = { s with
      cap := { s.cap with table := s.cap.table.map fun e =>
        if e.member = .waiting ∧ later t (e.time - s.time.correction) = true then { e with member := .resolved } else e }
      link := answered.foldl (fun l e => l.enqueue (.entry e.uid) (.report (s.reportOf e))) s.link } := by
  subst ha
  obtain ⟨hnodup, -⟩ := s.uidsSound_iff.mp hs
  have hfold := State.foldl_resolveEntry (s.cap.table.filter fun e =>
    decide (e.member = .waiting) && later t (e.time - s.time.correction)) s hs
    (hnodup.sublist (List.filter_sublist.map _)) (fun e he => by
      obtain ⟨hmem, hw⟩ := List.mem_filter.mp he
      exact ⟨hmem, by simp at hw; exact hw.1⟩) hroom
  refine Eq.trans hfold ?_
  have htable : (s.cap.table.map fun e => if e.uid ∈ (s.cap.table.filter fun e =>
      decide (e.member = .waiting) && later t (e.time - s.time.correction)).map Entry.uid then
        { e with member := .resolved } else e) = s.cap.table.map fun e =>
      if e.member = .waiting ∧ later t (e.time - s.time.correction) = true then { e with member := .resolved } else e :=
    List.map_congr_left fun e he => by
      simp only [State.mem_map_uid_filter hs he, Bool.and_eq_true, decide_eq_true_eq]
  rw [htable]

/-! ### The samples -/

theorem pushSample_eq (ring : List Sample) (x : Sample) : pushSample ring x = ring.drop (ring.length - 511) ++ [x] := by
  unfold pushSample
  by_cases h : Config.ringSize ≤ ring.length
  · have : ring.length + 1 - Config.ringSize = ring.length - 511 := by simp only [Config.ringSize] at *; omega
    rw [if_pos h, this]
  · have : ring.length - 511 = 0 := by simp only [Config.ringSize] at *; omega
    rw [if_neg h, this, List.drop_zero]

theorem State.sampleInstant_eq {s : State} {t : Time} (hr : s.running = true) (hn : s.hist.nextInstant = some t)
    (hd : later t s.time.localTime = false) : s.sampleInstant = ((s.appendSamples t).resolveAll t).clearAndWalk := by
  have hdue : s.sampleDue = some t := by
    rw [State.sampleDue, hn]
    simp [hr, State.reached_eq, hd]
  rw [State.sampleInstant, hdue]

/-! ### The readings -/

theorem State.mem_readings {s : State} {map : ChanSet} {l : Time} {i : Chan} {x : Reading} :
    ⟨i, x⟩ ∈ s.readings map l ↔
      map.getLsbD i.val = true ∧ (resolve (s.hist.rings.get i) l).reading l = some x := by
  simp only [State.readings, List.mem_filterMap]
  constructor
  · rintro ⟨j, -, hj⟩
    cases hm : map.getLsbD j.val
    · rw [hm] at hj
      cases hj
    · rw [hm, if_pos rfl, Option.map_eq_some_iff] at hj
      obtain ⟨r, hr, he⟩ := hj
      cases he
      exact ⟨hm, hr⟩
  · rintro ⟨hm, hx⟩
    exact ⟨i, mem_four i, by rw [if_pos hm, hx]; rfl⟩

theorem State.ascending_readings (s : State) (map : ChanSet) (l : Time) : ascending (s.readings map l) = true := by
  have hfour : four.Pairwise (· < ·) := by decide
  rw [ascending_iff, State.readings, List.pairwise_filterMap]
  refine hfour.imp fun {a b} hab e he f hf => ?_
  have hchan : ∀ (i : Chan) (e : ChannelEntry), (if map.getLsbD i.val = true then
      ((resolve (s.hist.rings.get i) l).reading l).map (fun r => (⟨i, r⟩ : ChannelEntry)) else none) = some e →
      e.chan = i := by
    intro i e he
    cases hm : map.getLsbD i.val
    · rw [hm] at he
      cases he
    · rw [hm, if_pos rfl, Option.map_eq_some_iff] at he
      obtain ⟨r, -, rfl⟩ := he
      rfl
  rw [hchan a e he, hchan b f hf]
  exact hab

/-- R16, R17, R18: the channel entry a history result gives. -/
theorem Resolution.reading_pair (b a : Sample) (l : Time) (x : Reading) : (Resolution.pair b a).reading l = some x ↔
    x = .sampled (b.quality.worse a.quality) ⟨b.count, (b.time - l).setWidth 16, b.epoch⟩
      (if a.epoch = b.epoch then some ⟨a.count, (a.time - l).setWidth 16⟩ else none) := by
  rw [Resolution.reading, Option.some_inj]
  exact eq_comm

theorem Quality.worse_eq_fault (p q : Quality) : p.worse q = .fault ↔ p = .fault ∨ q = .fault := by
  cases p <;> cases q <;> simp [Quality.worse]

theorem Quality.worse_eq_good (p q : Quality) : p.worse q = .good ↔ p = .good ∧ q = .good := by
  cases p <;> cases q <;> simp [Quality.worse]

theorem Quality.eq_of_iff {p q : Quality} (hf : p = .fault ↔ q = .fault) (hg : p = .good ↔ q = .good) : p = q := by
  cases p <;> cases q <;> simp_all

theorem State.sampleDue_loading {s : State} (hl : s.ctrl.lifecycle = .loading) : s.sampleDue = none := by
  have hr : s.running = false := by simp [State.running, hl]
  cases hn : s.hist.nextInstant <;> simp [State.sampleDue, hn, hr]

end Sys2Proof.Machine

namespace Sys2Proof

-- one declaration after the other: fewer threads at a time
set_option Elab.async false

open Machine

/-- Settles O52: the rings grow, the entries are resolved in table order in a queue with room, and the readings are what the
ring answers. -/
theorem sampleInstantAppends : Obligations.SampleInstantAppends := by
  refine ⟨fun dt s instant hr hn hd hs => ?_, fun dt s hh hl => ?_, fun s map l => ⟨s.ascending_readings map l,
    fun i x => ?_⟩⟩
  · intro answered hroom
    let h : History := { s.hist with
      rings := Four.build fun i => if s.image.modes.get i = .off then s.hist.rings.get i
        else (s.hist.rings.get i).drop ((s.hist.rings.get i).length - 511) ++
          [⟨instant, (s.chans.get i).count, (s.chans.get i).epoch, (s.chans.get i).quality⟩]
      newest := some instant, nextInstant := some (instant + BitVec.ofNat 48 s.image.samplePeriod), touched := 0 }
    let a : State := { s with
      time := (s.elapse dt).time, link := (s.elapse dt).link, hist := { h with touched := s.hist.touched } }
    have happend : (s.elapse dt).appendSamples instant = a := by
      simp [State.appendSamples, State.active, pushSample_eq, Channel.sample, addTicks, a, h]
    have hresolve := State.resolveAll_eq (s := a) hs instant (answered := answered)
      (by simp [a, answered]) (by simpa [a, LinkUnit.count] using hroom)
    have hreport : ∀ e, a.reportOf e = ⟨e.tag, s.time.state, .none,
        State.readings { s with hist := h } s.image.groups[e.group].map (e.time - s.time.correction)⟩ := fun e => by
      simp [State.reportOf, State.readings, State.channelMap, State.toLocal, a]
    refine ⟨h, rfl, fun i => by simp only [h, Four.get_build], ?_⟩
    rw [exec_eq_effect]
    show Host.Outcome.next (s.elapse dt).sampleInstant.settle = _
    rw [State.sampleInstant_eq (by simpa using hr) (by simpa using hn) hd, happend, hresolve]
    simp only [hreport, State.clearAndWalk, State.elapse_pins, State.elapse_image, State.elapse_ctrl, State.elapse_chans,
      State.elapse_trig, State.elapse_req, State.elapse_pending]
    simp only [a, State.elapse_correction]
    rfl
  · rw [exec_eq_effect]
    show Host.Outcome.next (s.elapse dt).sampleInstant.settle = _
    rw [State.sampleInstant, State.sampleDue_loading (by simpa using hl)]
    simp [State.released, hh, hl]
  · rw [State.mem_readings]
    refine and_congr_right fun _ => ?_
    cases hres : resolve (s.hist.rings.get i) l with
    | notYet => simp [Resolution.reading]
    | stale => simp [Resolution.reading, eq_comm]
    | pair b a =>
      rw [Resolution.reading_pair]
      constructor
      · intro hx
        exact ⟨_, hx, b.quality.worse_eq_fault a.quality, b.quality.worse_eq_good a.quality⟩
      · rintro ⟨q, hx, hfault, hgood⟩
        rw [Quality.eq_of_iff (hfault.trans (b.quality.worse_eq_fault a.quality).symm)
          (hgood.trans (b.quality.worse_eq_good a.quality).symm)] at hx
        exact hx

end Sys2Proof

/-!
PROOFS. The beacon slot: the round, the peers it judges, the BEACON it offers, and the next slot.
-/

namespace Sys2Proof.Machine

-- one declaration after the other: fewer threads at a time
set_option Elab.async false

/-! ### JOINED is not entered by a loss -/

theorem State.lose_ne_joined {s : State} (h : s.ctrl.lifecycle ≠ .joined) (f : QFrame) (o : Loss) :
    (s.lose f o).ctrl.lifecycle ≠ .joined := by
  by_cases hl : s.ctrl.lifecycle = .leaving
  · have hended : s.leaveEnded.ctrl.lifecycle ≠ .joined := by
      rw [State.leaveEnded_ctrl, if_pos hl]
      split <;> simp
    obtain ⟨owner, content, age, attempts, started⟩ := f
    cases owner with
    | entry uid => cases content <;> simp only [State.lose] <;> (try split) <;> simpa using h
    | controller => simp only [State.lose]; split <;> [exact h; exact hended]
    | _ => exact h
  · rw [State.lose_ctrl hl]
    exact h

theorem State.offer_ne_joined {s : State} (h : s.ctrl.lifecycle ≠ .joined) (o : Owner) (c : Content) :
    (s.offer o c).ctrl.lifecycle ≠ .joined := by
  have hlink : ∀ l f x, ((s.withLink l).lose f x).ctrl.lifecycle ≠ .joined := fun l f x =>
    State.lose_ne_joined (s := s.withLink l) h f x
  rcases s.offer_cases o c with ⟨_, _, _, e⟩ | ⟨_, _, e⟩ | ⟨_, _, _, _, _, _, e⟩ | ⟨_, _, _, e⟩ <;> rw [e]
  · exact hlink _ _ _
  · exact h
  · exact hlink _ _ _
  · exact State.lose_ne_joined h _ _

theorem State.foldl_takeDeadline_ne_joined (l : List Nat) : ∀ s : State, s.ctrl.lifecycle ≠ .joined →
    (l.foldl State.takeDeadline s).ctrl.lifecycle ≠ .joined := by
  induction l with
  | nil => exact fun s h => h
  | cons uid l ih =>
    intro s h
    refine ih _ ?_
    unfold State.takeDeadline
    split
    · split
      · exact State.offer_ne_joined (s := s.onEntry _ _) h _ _
      · exact h
    · exact h

theorem State.correct_ne_joined {s : State} (h : s.ctrl.lifecycle ≠ .joined) (delta : Time) :
    (s.correct delta).ctrl.lifecycle ≠ .joined := by
  unfold State.correct
  split
  · exact h
  · have hfree : ∀ u : State, u.freeExpired.ctrl = u.ctrl := fun u => State.foldl_freeEntry_ctrl u _
    rw [State.walkPresets_ctrl]
    refine State.foldl_takeDeadline_ne_joined _ _ ?_
    simpa [State.passSchedules, State.missStrobes, hfree] using h

/-- A change of the correction neither enters nor leaves JOINED. -/
theorem State.correct_joined (s : State) (delta : Time) : (s.correct delta).joined = s.joined := by
  by_cases hl : s.ctrl.lifecycle = .joined
  · rw [State.joined, State.joined, State.released, State.correct_ctrl (by simp [hl])]
    rfl
  · rw [State.joined_eq_false hl, State.joined_eq_false (State.correct_ne_joined hl delta)]

/-! ### The round -/

theorem State.correct_time_eq (s : State) (delta : Time) : (s.correct delta).time = { s.time with
    correction := s.time.correction + delta
    peers := s.time.peers.map fun p => { p with offset := p.offset - delta } } := by
  by_cases hd : delta = 0
  · rw [hd, State.correct_zero]
    simp
  · exact s.correct_time hd

/-- R85: the midpoint of the round of a peer table that has aged. -/
def TimeUnit.roundMid (t : TimeUnit) : Int := midpoint (0 :: t.votes)

/-- R87: the change of the correction in the round. -/
def TimeUnit.roundDelta (t : TimeUnit) : Time := BitVec.ofInt 48 (roundStep t.roundMid)

/-- R85: the state of the aged table with its correction changed. -/
def State.steppedRound (s : State) : State := s.agePeers.correct s.agePeers.time.roundDelta

/-- R77: the state with the BEACON of the slot offered. -/
def State.beaconed (s : State) : State :=
  if s.ctrl.lifecycle = .joined then s.steppedRound.offer .time (.beacon none) else s.steppedRound

/-- R88 to R90: the time state set and the peers judged, once the correction has changed; `aged` is the table before. -/
def TimeUnit.roundEnd (aged t : TimeUnit) : TimeUnit :=
  { t with
    state := roundState aged.votes aged.roundMid aged.anyAdmitted t.state
    peers := t.peers.map fun p => p.judged (p.offset + aged.roundDelta).toInt aged.roundMid }

theorem State.round_eq (s : State) : s.round = s.steppedRound.refit s.agePeers.time.roundEnd id := rfl

theorem State.round_joined (s : State) : s.round.joined = s.joined := by
  rw [s.round_eq]
  exact s.agePeers.correct_joined _

theorem State.beaconSlot_eq {s : State} {slot : Time} (hr : s.running = true) (hn : s.time.nextSlot = some slot)
    (hd : later (slot - s.time.correction) s.time.localTime = false) : s.beaconSlot = { s.round.offerBeacon with
      time := { s.round.offerBeacon.time with nextSlot := some (s.round.offerBeacon.slotAfter slot) } } := by
  have hdue : s.slotDue = some slot := by
    simp only [State.slotDue, hn, hr, (s.reachedNet_iff slot).mpr hd, Bool.and_self, if_true]
  rw [State.beaconSlot, hdue]

/-- R77, R85: the slot's doings beside the time unit are the change of the correction and the BEACON. -/
theorem State.beaconSlot_rest {s : State} {slot : Time} (hr : s.running = true) (hn : s.time.nextSlot = some slot)
    (hd : later (slot - s.time.correction) s.time.localTime = false) :
    s.beaconSlot = { s.beaconed with time := s.beaconSlot.time } := by
  have hj : s.round.joined = decide (s.ctrl.lifecycle = .joined) := by
    rw [State.running, Bool.and_eq_true] at hr
    rw [State.round_joined, State.joined, hr.1, Bool.true_and]
  rw [State.beaconSlot_eq hr hn hd, State.offerBeacon, hj, State.beaconed]
  by_cases hl : s.ctrl.lifecycle = .joined
  · simp only [hl, decide_true, if_true]
    rw [s.round_eq, State.offer_refit (τ := s.agePeers.time.roundEnd) (σ := id) fun _ => rfl]
    rfl
  · simp only [hl, decide_false, if_false, Bool.false_eq_true]
    rw [s.round_eq]
    rfl

theorem State.offerBeacon_time (s : State) : s.offerBeacon.time = s.time := by
  unfold State.offerBeacon
  split <;> simp

theorem State.round_time (s : State) : s.round.time = { s.time with
    correction := s.time.correction + s.agePeers.time.roundDelta
    state := roundState s.agePeers.time.votes s.agePeers.time.roundMid s.agePeers.time.anyAdmitted s.time.state
    peers := s.agePeers.time.peers.map fun p =>
      Peer.judged { p with offset := p.offset - s.agePeers.time.roundDelta } p.offset.toInt s.agePeers.time.roundMid } := by
  rw [s.round_eq]
  show s.agePeers.time.roundEnd s.steppedRound.time = _
  rw [State.steppedRound, State.correct_time_eq, TimeUnit.roundEnd]
  simp only [List.map_map, Function.comp_def, BitVec.sub_add_cancel]
  rfl

/-- The slot leaves the pins, the image, the rings and the waiting commands alone. -/
theorem State.beaconed_frame (s : State) : s.beaconed.pins = s.pins ∧ s.beaconed.image = s.image ∧
    s.beaconed.hist.rings = s.hist.rings ∧ s.beaconed.pending = s.pending := by
  unfold State.beaconed State.steppedRound
  split <;> simp [State.agePeers]

theorem State.beaconed_ctrl {s : State} (h : s.ctrl.lifecycle ≠ .leaving) : s.beaconed.ctrl = s.ctrl := by
  have hstepped : s.steppedRound.ctrl = s.ctrl := State.correct_ctrl (s := s.agePeers) h _
  unfold State.beaconed
  split
  · rw [State.offer_ctrl (by rw [hstepped]; exact h), hstepped]
  · exact hstepped

/-- With a change of 0 the round moves nothing but the time unit. -/
theorem State.steppedRound_zero {s : State} (h : s.agePeers.time.roundDelta = 0) : s.steppedRound = s.agePeers := by
  rw [State.steppedRound, h, State.correct_zero]

/-! ### The peers -/

theorem withinLimit_iff (offset m : Int) : withinLimit offset m = true ↔ -200 ≤ offset - m ∧ offset - m ≤ 200 := by
  rw [withinLimit, decide_eq_true_iff, Config.rejectLimit]
  omega

theorem roundStep_eq (m : Int) : roundStep m =
    if -50 ≤ m ∧ m ≤ 50 then m else if 50 < m ∧ m ≤ 2000 then 50 else if -2000 ≤ m ∧ m < -50 then -50 else m := by
  simp only [roundStep, Config.stepLimit, Config.jumpThreshold]
  split_ifs <;> omega

/-- R89, R90: a peer judged, by its state and its fresh flag. -/
theorem Peer.judged_stale {p : Peer} (h : p.fresh = false) (offset m : Int) :
    p.judged offset m = { p with fresh := false } := by
  simp [Peer.judged, h]

theorem Peer.judged_other {p : Peer} (ha : p.state ≠ .admitted) (hs : p.state ≠ .suspect) (offset m : Int) :
    p.judged offset m = { p with fresh := false } := by
  cases hstate : p.state <;> simp_all [Peer.judged]

theorem Peer.judged_admitted {p : Peer} (hf : p.fresh = true) (h : p.state = .admitted) (offset m : Int) :
    p.judged offset m = { p with
      fresh := false
      state := if withinLimit offset m then .admitted else .suspect
      inLimit := if withinLimit offset m then p.inLimit else 0 } := by
  cases hw : withinLimit offset m <;> simp [Peer.judged, hf, h, hw]

theorem Peer.judged_suspect {p : Peer} (hf : p.fresh = true) (h : p.state = .suspect) (offset m : Int) :
    p.judged offset m = { p with
      fresh := false
      state := if withinLimit offset m = true ∧ 3 ≤ p.inLimit + 1 then .admitted else .suspect
      inLimit := if withinLimit offset m then p.inLimit + 1 else 0 } := by
  cases hw : withinLimit offset m
  · simp [Peer.judged, hf, h, hw]
  · by_cases hi : 3 ≤ p.inLimit + 1
    · simp only [Peer.judged, hf, h, hw, Config.recovery, hi]
      rfl
    · simp only [Peer.judged, hf, h, hw, Config.recovery, hi]
      rfl

end Sys2Proof.Machine

namespace Sys2Proof

-- one declaration after the other: fewer threads at a time
set_option Elab.async false

open Machine

/-- Settles O49: the round is a change of the correction with the time unit's judgement after it, and the BEACON's offer does not
look at the time. -/
theorem beaconSlotRunsRound : Obligations.BeaconSlotRunsRound := by
  intro dt s slot hr hn hd now aged votes m delta within
  have hyr : (s.elapse dt).running = true := by simpa using hr
  have hyn : (s.elapse dt).time.nextSlot = some slot := by simpa using hn
  have hyd : later (slot - (s.elapse dt).time.correction) (s.elapse dt).time.localTime = false := by simpa using hd
  have haged : (s.elapse dt).agePeers.time.peers = aged := by
    show (s.elapse dt).time.peers.filterMap _ = _
    rw [State.elapse_peers]
    rfl
  have hvotes : (s.elapse dt).agePeers.time.votes = votes := by
    rw [TimeUnit.votes, haged]
    rfl
  have hmid : (s.elapse dt).agePeers.time.roundMid = m := by rw [TimeUnit.roundMid, hvotes]
  have hround : (s.elapse dt).agePeers.time.roundDelta = BitVec.ofInt 48 delta := by
    rw [TimeUnit.roundDelta, hmid, roundStep_eq]
  have hexec : exec (.beaconSlot dt) s = .next (s.elapse dt).beaconSlot.settle := exec_eq_effect _ _
  have hrest := State.beaconSlot_rest hyr hyn hyd
  have htime : (s.elapse dt).beaconSlot.time = { (s.elapse dt).round.time with
      nextSlot := some ((s.elapse dt).round.offerBeacon.slotAfter slot) } := by
    rw [State.beaconSlot_eq hyr hyn hyd, State.offerBeacon_time]
  have hage : (s.elapse dt).agePeers = { s.elapse dt with time := { (s.elapse dt).time with peers := aged } } := by
    rw [← haged]
    rfl
  have hstill : delta = 0 → (s.elapse dt).agePeers.time.roundDelta = 0 := fun hzero => by
    rw [hround, hzero]
    rfl
  obtain ⟨hpins, himage, hrings, hpending⟩ := (s.elapse dt).beaconed_frame
  have hidentity : (s.elapse dt).round.offerBeacon.ctrl.identity = s.ctrl.identity := by
    have hclock := (((s.elapse dt).round_acts.then (State.offerBeacon_acts _)).updates).sameClock
    rw [hclock.identity, State.elapse_ctrl]
  refine ⟨(s.elapse dt).beaconSlot.settle, hexec, ?_, ?_, ?_, ?_, ?_, fun hl => ?_, ?_, fun hzero hl => ?_,
    fun hzero hl => ?_⟩
  · have hround_time := State.round_time (s.elapse dt)
    rw [hround, hmid, haged, hvotes] at hround_time
    have hnet : (s.elapse dt).beaconSlot.settle.netTime = (s.elapse dt).round.offerBeacon.netTime := by
      simp only [State.netTime, State.settle_time, htime, State.offerBeacon_time]
    rw [hnet, State.settle_time, htime, hround_time]
    simp only [TimeUnit.mk.injEq]
    refine ⟨rfl, trivial, ?_, ?_, ?_, ?_⟩
    · rw [State.elapse_correction]
    · have hadmitted : (s.elapse dt).agePeers.time.anyAdmitted = true ↔ ∃ p ∈ aged, p.state = .admitted := by
        rw [TimeUnit.anyAdmitted_iff, haged]
      have hlock : m.natAbs ≤ Config.lockWindow ↔ -10 ≤ m ∧ m ≤ 10 := by
        rw [Config.lockWindow]
        omega
      simp only [roundState, hadmitted, hlock, State.elapse_state, List.isEmpty_iff, ne_eq, ite_not]
    · refine List.map_congr_left fun p _ => ?_
      have hw : withinLimit p.offset.toInt m = decide (within p) := by
        rw [Bool.eq_iff_iff, withinLimit_iff, decide_eq_true_iff]
      obtain ⟨ident, state, lastBeacon, offset, fresh, accepted, inLimit, groups, timeState⟩ := p
      cases fresh
      · rw [Peer.judged_stale (by rfl)]
      · cases state with
        | heard => rw [Peer.judged_other (by simp) (by simp)]
        | silent => rw [Peer.judged_other (by simp) (by simp)]
        | admitted =>
          rw [Peer.judged_admitted (by rfl) (by rfl), hw]
          simp
        | suspect =>
          rw [Peer.judged_suspect (by rfl) (by rfl), hw]
          simp
    · simp only [State.slotAfter, hidentity]
  · rw [State.settle_pins, hrest]
    exact hpins.trans (s.elapse_pins dt)
  · rw [State.settle_image, hrest]
    exact himage.trans (s.elapse_image dt)
  · rw [State.settle_hist, hrest]
    exact hrings.trans (by rw [State.elapse_hist])
  · rw [State.settle_pending, hrest]
    exact hpending.trans (s.elapse_pending dt)
  · show (s.elapse dt).beaconSlot.ctrl.lifecycle = _
    rw [hrest]
    show (s.elapse dt).beaconed.ctrl.lifecycle = _
    rw [State.beaconed_ctrl (by simpa using hl), State.elapse_ctrl]
  · intro corrected
    have hcorrected : (s.elapse dt).steppedRound = corrected := by rw [State.steppedRound, hround, hage]
    rw [State.beaconed, hcorrected, State.elapse_ctrl] at hrest
    exact congrArg State.settle hrest
  · rw [State.beaconed, State.elapse_ctrl, if_neg hl, State.steppedRound_zero (hstill hzero)] at hrest
    exact congrArg State.settle hrest
  · rw [State.beaconed, State.elapse_ctrl, if_pos hl, State.steppedRound_zero (hstill hzero)] at hrest
    have hpred : (s.elapse dt).agePeers.link.predecessor (.beacon none) =
        s.link.queue.find? fun f => match f.content with | .beacon _ => true | _ => false := by
      have hqueue : (s.elapse dt).agePeers.link.queue = s.link.queue := s.elapse_queue dt
      have hbeacons := congrArg (fun q => LinkUnit.predecessor { s.link with queue := q } (.beacon none)) hqueue
      refine Eq.trans hbeacons (congrArg (fun p => List.find? p s.link.queue) (funext fun f => ?_))
      cases f.content <;> rfl
    split
    next old hold =>
      intro howner
      rw [State.offer_replacing (hpred.trans hold), State.lose_time_eq _ howner] at hrest
      refine congrArg State.settle (hrest.trans ?_)
      rw [← State.elapse_queue s dt]
      rfl
    next hnone =>
      intro hroom
      rw [State.offer_of_room (hpred.trans hnone) (by simpa [Config.queueSize, State.agePeers] using hroom)] at hrest
      refine congrArg State.settle (hrest.trans ?_)
      rw [← State.elapse_queue s dt, ← State.elapse_nextAge s dt]
      rfl

end Sys2Proof
